-- ==== Sys2Proof/Config.lean ====
section
/-! DEFINITION. The parameters of PRE (00_scope.md R5, R6) and the values the spec leaves open (log entries 3 and 4). -/

namespace Sys2Proof

/-- Which coordinate is the slow index of the row-major image (20_memory.md R40). -/
inductive ImgOrder where
  | xMajor
  | yMajor
deriving DecidableEq, Repr

/-- One configuration of PRE. The three proof fields are 00_scope.md R6: with a zero dimension or counter width it is no
configuration, so none can be built (log entry 5). -/
structure Config where
  xpix : Nat
  ypix : Nat
  cntW : Nat
  imgOrder : ImgOrder := .xMajor
  /-- SEQ_RESYNC = 1 is `true` (43_accumulate_window.md R112, R113). -/
  seqResync : Bool := false
  /-- BUF_CAP; `none` is INF (00_scope.md R5). -/
  bufCap : Option Nat := none
  xpix_pos : 0 < xpix := by decide
  ypix_pos : 0 < ypix := by decide
  cntW_pos : 0 < cntW := by decide
deriving DecidableEq, Repr

/-- Free value: XPIX less one. XPIX is OPEN, any integer at least 1 (00_scope.md R5, log entry 3). -/
opaque Config.xpixLessOne : Nat

/-- Free value: YPIX less one (00_scope.md R5, log entry 3). -/
opaque Config.ypixLessOne : Nat

/-- Free value: CNT_W less one (00_scope.md R5, log entry 3). -/
opaque Config.cntWLessOne : Nat

/-- Free value: the `start_sec` argument of the reset that starts the process (44_control.md R130, log entry 4). -/
opaque Config.bootSecond : Nat

/-- The configuration `State.reset` stands in: the OPEN parameters free, the others at the values the spec decides. -/
def Config.installed : Config where
  xpix := Config.xpixLessOne + 1
  ypix := Config.ypixLessOne + 1
  cntW := Config.cntWLessOne + 1
  xpix_pos := Nat.succ_pos _
  ypix_pos := Nat.succ_pos _
  cntW_pos := Nat.succ_pos _

end Sys2Proof
end

