-- ==== Sys2Proof/Word.lean ====
section
/-! DEFINITION. Bytes, wire words and the two decoded records of PRE (spec 30_encoding.md R50 to R52). -/

namespace Sys2Proof

/-- One byte of the stream (00_scope.md R8). -/
abbrev Byte := BitVec 8

/-- One wire word, 64 bits (30_encoding.md R50). -/
abbrev Word := BitVec 64

/-- A Header Record: the decoded word 0 of a packet (30_encoding.md R51, 42_decoder.md R101). -/
structure Header where
  startMarker : BitVec 8
  channelId : BitVec 8
  frameNumber : BitVec 12
  timestamp : BitVec 36
deriving DecidableEq, Repr

/-- A Photon Record: the decoded form of a later word of a packet (30_encoding.md R52, 42_decoder.md R102). -/
structure Photon where
  xCoord : BitVec 10
  yCoord : BitVec 10
  localTimestamp : BitVec 9
  wavelengthCode : BitVec 18
  baselineCode : BitVec 17
deriving DecidableEq, Repr

end Sys2Proof
end

