-- ==== Sys2Proof/Syntax.lean ====
section
/-! DEFINITION. The rows of spec/opcode_table.json: four classes of wire word and five operations (30_encoding.md R64). -/

namespace Sys2Proof

/-- One constructor per row of the opcode table. The word rows carry the fields of their format; the operations carry
their arguments (10_state.md R23). -/
inductive Instr where
  /-- Row HDR0: word 0 of a packet, any bits, format H (30_encoding.md R51, R55). -/
  | hdr0 (startMarker channelId : BitVec 8) (frameNumber : BitVec 12) (timestamp : BitVec 36)
  /-- Row HDR: a word at index 1 or later whose start_marker is 0xFF (30_encoding.md R54). -/
  | hdr (channelId : BitVec 8) (frameNumber : BitVec 12) (timestamp : BitVec 36)
  /-- Row TERM: a terminator; the low 48 bits are ignored (30_encoding.md R53). -/
  | term (ignored : BitVec 48)
  /-- Row PHOTON: every other word at index 1 or later, format P (30_encoding.md R52, R54). -/
  | photon (xCoord yCoord : BitVec 10) (localTimestamp : BitVec 9) (wavelengthCode : BitVec 18)
      (baselineCode : BitVec 17)
  /-- Row RESET (44_control.md R130). -/
  | reset (startSec : Nat)
  /-- Row PUSH (40_ingress.md R71). -/
  | push (chunk : List Byte)
  /-- Row SCAN (41_reassembly.md R80). -/
  | scan
  /-- Row TICK (43_accumulate_window.md R116). -/
  | tick (now : Nat)
  /-- Row STOP (44_control.md R132). -/
  | stop
deriving DecidableEq, Repr

end Sys2Proof
end

