-- ==== Sys2Proof/WellFormed.lean ====
section
/-! DEFINITION. Which instructions have an encoding that is read back as themselves (30_encoding.md R60). -/

namespace Sys2Proof

/-- A photon record that is taken for a header: x_coord at least 1020 (30_encoding.md R60 (a)). -/
def aliasesHeader (xCoord : BitVec 10) : Bool := decide (1020 ≤ xCoord.toNat)

/-- A photon record that is taken for a terminator: x_coord 511 and y_coord at least 1008 (30_encoding.md R60 (b)). -/
def aliasesTerminator (xCoord yCoord : BitVec 10) : Bool :=
  decide (xCoord.toNat = 511) && decide (1008 ≤ yCoord.toNat)

/-- Every instruction is well formed but a photon record whose word is a boundary. No other field is restricted: the
widths of 30_encoding.md R51 to R53 are in the types. -/
def Instr.wf : Instr → Bool
  | .hdr0 _ _ _ _ => true
  | .hdr _ _ _ => true
  | .term _ => true
  | .photon x y _ _ _ => !aliasesHeader x && !aliasesTerminator x y
  | .reset _ => true
  | .push _ => true
  | .scan => true
  | .tick _ => true
  | .stop => true

end Sys2Proof
end

