-- ==== Sys2Proof/Decode.lean ====
section
/-! DEFINITION. Byte order, classification, field extraction, the positional decoder and the encoder
(20_memory.md R31, 30_encoding.md R50 to R62, 42_decoder.md R101 to R103). -/

namespace Sys2Proof

/-- Bits `lo + len - 1` down to `lo` of a word (00_scope.md R8). -/
def bits (w : Word) (lo len : Nat) : BitVec len := w.extractLsb' lo len

/-- The byte that arrived first is the most significant (00_scope.md R8, 20_memory.md R31). -/
def be64 (b0 b1 b2 b3 b4 b5 b6 b7 : Byte) : Word :=
  BitVec.ofNat 64 (b0.toNat * 2 ^ 56 + b1.toNat * 2 ^ 48 + b2.toNat * 2 ^ 40 + b3.toNat * 2 ^ 32
    + b4.toNat * 2 ^ 24 + b5.toNat * 2 ^ 16 + b6.toNat * 2 ^ 8 + b7.toNat)

/-- The 8 bytes of a word, first on the wire first: `bytes(w)` of 30_encoding.md R62. -/
def wordBytes (w : Word) : List Byte :=
  [bits w 56 8, bits w 48 8, bits w 40 8, bits w 32 8, bits w 24 8, bits w 16 8, bits w 8 8, bits w 0 8]

/-- The first whole word of a byte sequence and what follows it; `none` for a partial word (20_memory.md R34). -/
def takeWord : List Byte → Option (Word × List Byte)
  | b0 :: b1 :: b2 :: b3 :: b4 :: b5 :: b6 :: b7 :: rest => some (be64 b0 b1 b2 b3 b4 b5 b6 b7, rest)
  | _ => none

/-- The word at a word index, `be64(s, i)`; defined only where the whole word is there (20_memory.md R34). -/
def wordAt (s : List Byte) (i : Nat) : Option Word := (takeWord (s.drop (8 * i))).map (·.1)

/-- All whole words of a byte sequence, in order; a trailing partial word is not read (20_memory.md R34). -/
def words : List Byte → List Word
  | b0 :: b1 :: b2 :: b3 :: b4 :: b5 :: b6 :: b7 :: rest => be64 b0 b1 b2 b3 b4 b5 b6 b7 :: words rest
  | _ => []

/-- The classes the scanner tells apart (30_encoding.md R54). -/
inductive WordClass where
  | hdr
  | term
  | photon
deriving DecidableEq, Repr

/-- The sentinel of a normal boundary (00_scope.md R5). -/
def startHdr : BitVec 8 := 0xFF

/-- The start_marker of a terminator (00_scope.md R5). -/
def startTerm : BitVec 8 := 0x7F

/-- The channel_id of a terminator (00_scope.md R5). -/
def chanTerm : BitVec 8 := 0xFF

/-- The scanner's classification of a word at index 1 or later (30_encoding.md R54). -/
def classify (w : Word) : WordClass :=
  if bits w 56 8 = startHdr then .hdr
  else if bits w 56 8 = startTerm ∧ bits w 48 8 = chanTerm then .term
  else .photon

/-- Format H (30_encoding.md R51, R56; 42_decoder.md R101). -/
def decodeHeader (w : Word) : Header where
  startMarker := bits w 56 8
  channelId := bits w 48 8
  frameNumber := bits w 36 12
  timestamp := bits w 0 36

/-- Format P (30_encoding.md R52, R56; 42_decoder.md R102). -/
def decodePhoton (w : Word) : Photon where
  xCoord := bits w 54 10
  yCoord := bits w 44 10
  localTimestamp := bits w 35 9
  wavelengthCode := bits w 17 18
  baselineCode := bits w 0 17

/-- Where a word stands in the Reassembly Buffer: decoding is positional (30_encoding.md R55). -/
inductive WordPos where
  | first
  | later
deriving DecidableEq, Repr

/-- The instruction a word is, by its position; no word is rejected (30_encoding.md R55, R59). -/
def decodeWord : WordPos → Word → Instr
  | .first, w => .hdr0 (bits w 56 8) (bits w 48 8) (bits w 36 12) (bits w 0 36)
  | .later, w =>
    match classify w with
    | .hdr => .hdr (bits w 48 8) (bits w 36 12) (bits w 0 36)
    | .term => .term (bits w 0 48)
    | .photon => .photon (bits w 54 10) (bits w 44 10) (bits w 35 9) (bits w 17 18) (bits w 0 17)

/-- Why bytes are not decoded. -/
inductive DecodeError where
  /-- Fewer than 8 bytes: a partial word is never read as a word (20_memory.md R34). -/
  | partialWord
deriving DecidableEq, Repr

/-- The decoder on bytes: the instruction of the first word and the bytes after it. -/
def decode (p : WordPos) (s : List Byte) : Except DecodeError (Instr × List Byte) :=
  match takeWord s with
  | some (w, rest) => .ok (decodeWord p w, rest)
  | none => .error .partialWord

/-- The position an instruction's word is decoded at; the operations have no word (30_encoding.md R55, R64). -/
def Instr.position : Instr → Option WordPos
  | .hdr0 _ _ _ _ => some .first
  | .hdr _ _ _ => some .later
  | .term _ => some .later
  | .photon _ _ _ _ _ => some .later
  | .reset _ => none
  | .push _ => none
  | .scan => none
  | .tick _ => none
  | .stop => none

/-- The constructor `HDRX(sm, ch, fr, ts)` of 30_encoding.md R62. -/
def headerWord (sm ch : BitVec 8) (fr : BitVec 12) (ts : BitVec 36) : Word :=
  BitVec.ofNat 64 (sm.toNat * 2 ^ 56 + ch.toNat * 2 ^ 48 + fr.toNat * 2 ^ 36 + ts.toNat)

/-- The constructor `TERM(r)` of 30_encoding.md R62. -/
def terminatorWord (r : BitVec 48) : Word := BitVec.ofNat 64 (0x7FFF000000000000 + r.toNat)

/-- The constructor `PH(x, y, lt, wv, bl)` of 30_encoding.md R62. -/
def photonWord (x y : BitVec 10) (lt : BitVec 9) (wv : BitVec 18) (bl : BitVec 17) : Word :=
  BitVec.ofNat 64 (x.toNat * 2 ^ 54 + y.toNat * 2 ^ 44 + lt.toNat * 2 ^ 35 + wv.toNat * 2 ^ 17 + bl.toNat)

/-- The word of an instruction, from the constructors of 30_encoding.md R62; operations have no encoding (R64). -/
def encode : Instr → Option Word
  | .hdr0 sm ch fr ts => some (headerWord sm ch fr ts)
  | .hdr ch fr ts => some (headerWord startHdr ch fr ts)
  | .term r => some (terminatorWord r)
  | .photon x y lt wv bl => some (photonWord x y lt wv bl)
  | .reset _ => none
  | .push _ => none
  | .scan => none
  | .tick _ => none
  | .stop => none

/-- What the decoder reads from the table's bits of a row: `w`'s low `nbits` bits are the word, numbered as
30_encoding.md numbers them, and the bytes stand on the wire most significant first. The table does not give the
position, so the word is read where the scanner reads it, at index 1 or later (log entry 10); with no bits there is
no word. -/
def decodeTableWord (nbits w : Nat) : Option Instr :=
  if nbits = 0 then none
  else
    match decode .later (wordBytes (BitVec.ofNat 64 (w % 2 ^ nbits))) with
    | .ok (i, _) => some i
    | .error _ => none

end Sys2Proof
end

