-- ==== Sys2Proof/Machine/State.lean ====
section
/-! DEFINITION. The state of PRE (10_state.md R10 to R27), its reset (R26), and the ways a step can stop. -/

namespace Sys2Proof.Machine

/-- Run state (10_state.md R13). -/
inductive Mode where
  | run
  | stopped
  | faulted
deriving DecidableEq, Repr

/-- The Accumulation Image's counters: (index, count) pairs, indexes strictly rising, no zero count; an unlisted counter
reads 0, the reset value of 10_state.md R15 (log entry 12). -/
abbrev Memory := List (Nat × Nat)

/-- An event of snap_out: the second that ended and a copy of every counter in index order (10_state.md R22). -/
structure Snapshot where
  key : Nat
  data : List Nat
deriving DecidableEq, Repr

/-- An event of diag_out (60_exceptions.md R145). -/
inductive Diag where
  | oversize (len : Nat)
  | seqMismatch (chan : BitVec 8) (expected observed : BitVec 12)
  | windowPackets (key count : Nat)
deriving DecidableEq, Repr

/-- A move of a schedule: a host operation with its argument, or PRE's own SCAN (40_ingress.md R76, 44_control.md R134;
95_test_vectors.md part 3 writes a run as a sequence of these). -/
inductive Move where
  | reset (startSec : Nat)
  | push (chunk : List Byte)
  | scan
  | tick (now : Nat)
  | stop
deriving DecidableEq, Repr

/-- The state of PRE, and in the last two fields the environment's part of a run (10_state.md R10, R27). -/
structure State where
  /-- `mode`, 10_state.md R13. -/
  mode : Mode
  /-- `B`, the Reassembly Buffer, first byte first, 10_state.md R11. -/
  buf : List Byte
  /-- `si`, the scan index, 10_state.md R12. -/
  si : Nat
  /-- `Seq`, the expected frame number of every channel, 10_state.md R14. -/
  seq : Vector (BitVec 12) 256
  /-- `Img`, the Accumulation Image, 10_state.md R15. -/
  img : Memory
  /-- `win_sec`, 10_state.md R16. -/
  winSec : Nat
  /-- `pkt_count`, 10_state.md R17. -/
  pktCount : Nat
  /-- `n_seq_anom`, 10_state.md R18. -/
  nSeqAnom : Nat
  /-- `n_oversize`, 10_state.md R18. -/
  nOversize : Nat
  /-- `pkt_out`, 10_state.md R22. -/
  pktOut : List (List Byte)
  /-- `snap_out`, 10_state.md R22. -/
  snapOut : List Snapshot
  /-- `render_out`, the keys in order, 10_state.md R22. -/
  renderOut : List Nat
  /-- `diag_out`, 10_state.md R22. -/
  diagOut : List Diag
  /-- The configuration, which no step writes (00_scope.md R5; log entry 3). -/
  cfg : Config
  /-- The environment's coming moves, next first; the model's own field (20_memory.md R45; log entry 1). -/
  sched : List Move
deriving DecidableEq, Repr

/-- The ways a step can stop the machine. PRE itself has none: `BufferOverflow` is the state `mode = faulted`, which RESET
leaves (60_exceptions.md R144, R149). -/
inductive Fault where
  /-- Raised by SCAN, HDR and TERM when the packet to deliver has no whole word 0, or the word to examine is not whole:
  `be64` is defined only for whole words (20_memory.md R34). It needs `si = 0`, against 10_state.md R12, so no run
  reaches it. Safe (log entry 7). -/
  | wordNotWhole
deriving DecidableEq, Repr

/-- The ways the model declines to give a meaning. -/
inductive Refusal where
  /-- Raised by an arm of `exec` that has no meaning yet. No arm raises it. Safe. -/
  | notModelled (mnemonic : String)
  /-- Raised by `State.build` for a configuration with a zero dimension or counter width, as 00_scope.md R6 asks.
  No step raises it. Safe (log entry 5). -/
  | illegalConfig
deriving DecidableEq, Repr

/-- The state RESET(start_sec) leaves, for a configuration, with no move scheduled (10_state.md R26). -/
def State.resetWith (cfg : Config) (startSec : Nat) : State where
  mode := .run
  buf := []
  si := 1
  seq := Vector.replicate 256 0
  img := []
  winSec := startSec
  pktCount := 0
  nSeqAnom := 0
  nOversize := 0
  pktOut := []
  snapOut := []
  renderOut := []
  diagOut := []
  cfg := cfg
  sched := []

/-- The machine right after reset (10_state.md R26): the configuration and the start second are what the host gave, free
values here (log entries 3 and 4). -/
def State.reset : State := State.resetWith Config.installed Config.bootSecond

end Sys2Proof.Machine
end

