-- ==== Sys2Proof/Machine/Flags.lean ====
section
/-! DEFINITION. The anomalies and what decides them (60_exceptions.md R141, R142, R145; 00_scope.md R8 `flag`). -/

namespace Sys2Proof.Machine

/-- MAX_PKT_BYTES (00_scope.md R5). -/
def maxPktBytes : Nat := 832

/-- `flag Oversize(len)`: count, report, nothing else (60_exceptions.md R141). -/
def State.flagOversize (s : State) (len : Nat) : State :=
  { s with nOversize := s.nOversize + 1, diagOut := s.diagOut ++ [.oversize len] }

/-- `flag SeqMismatch(chan, expected, observed)`: count, report, nothing else (60_exceptions.md R142). -/
def State.flagSeqMismatch (s : State) (chan : BitVec 8) (expected observed : BitVec 12) : State :=
  { s with nSeqAnom := s.nSeqAnom + 1, diagOut := s.diagOut ++ [.seqMismatch chan expected observed] }

/-- The oversize check: strictly more than 832 bytes (41_reassembly.md R85). -/
def State.checkOversize (s : State) (len : Nat) : State :=
  if maxPktBytes < len then s.flagOversize len else s

/-- `Seq[c]` (10_state.md R14). -/
def State.expected (s : State) (chan : BitVec 8) : BitVec 12 := s.seq.get chan.toFin

/-- The sequence check: any difference is a mismatch (43_accumulate_window.md R111). -/
def State.checkSeq (s : State) (chan : BitVec 8) (observed : BitVec 12) : State :=
  if s.expected chan = observed then s else s.flagSeqMismatch chan (s.expected chan) observed

end Sys2Proof.Machine
end

