-- ==== Sys2Proof/Machine/Operands.lean ====
section
/-! DEFINITION. Operand transformations: coordinate reduction, image index and the decoding of a packet
(42_decoder.md R100 to R106, 20_memory.md R40). -/

namespace Sys2Proof.Machine

/-- The number of counters, XPIX * YPIX (10_state.md R15). -/
def pixelCount (cfg : Config) : Nat := cfg.xpix * cfg.ypix

/-- The modulus of a counter, 2^CNT_W (43_accumulate_window.md R114). -/
def counterModulus (cfg : Config) : Nat := 2 ^ cfg.cntW

/-- REDUCE (42_decoder.md R104): a remainder on each axis. -/
def reduceCoords (cfg : Config) (ph : Photon) : Nat × Nat :=
  (ph.xCoord.toNat % cfg.xpix, ph.yCoord.toNat % cfg.ypix)

/-- `idx` (20_memory.md R40). -/
def pixelIndex (cfg : Config) (xy : Nat × Nat) : Nat :=
  match cfg.imgOrder with
  | .xMajor => xy.1 * cfg.ypix + xy.2
  | .yMajor => xy.2 * cfg.xpix + xy.1

/-- DECODE (42_decoder.md R100): word 0 as a Header Record, every later word as reduced coordinates, in word order.
`none` where there is no whole word 0. -/
def decodePacket (cfg : Config) (p : List Byte) : Option (Header × List (Nat × Nat)) :=
  match words p with
  | [] => none
  | w :: ws => some (decodeHeader w, ws.map fun v => reduceCoords cfg (decodePhoton v))

end Sys2Proof.Machine
end

