-- ==== Sys2Proof/Machine/Ops.lean ====
section
/-! DEFINITION. The operations over memory, buffer, sequence state and output traces that the meanings share. -/

namespace Sys2Proof.Machine

/-! ### The image's storage -/

/-- Read one counter; an unlisted one is 0 (10_state.md R15). -/
def Memory.read : Memory → Nat → Nat
  | [], _ => 0
  | (a, v) :: m, k => if a = k then v else Memory.read m k

/-- Put a counter in front of the later ones, or leave it unlisted when it is 0. -/
def Memory.put (k v : Nat) (m : Memory) : Memory := if v = 0 then m else (k, v) :: m

/-- Write one counter, keeping the canonical form. -/
def Memory.write : Memory → Nat → Nat → Memory
  | [], k, v => Memory.put k v []
  | (a, u) :: m, k, v =>
    if k < a then Memory.put k v ((a, u) :: m)
    else if k = a then Memory.put k v m
    else (a, u) :: Memory.write m k v

/-- The canonical form: indexes strictly rising, no zero count listed. -/
abbrev Memory.wf (m : Memory) : Prop :=
  m.Pairwise (fun p q => p.1 < q.1) ∧ ∀ p ∈ m, p.2 ≠ 0

/-- Every listed index is below `size` and every count below `bound` (10_state.md R25 item 4). -/
abbrev Memory.fits (size bound : Nat) (m : Memory) : Prop := ∀ p ∈ m, p.1 < size ∧ p.2 < bound

/-- The counter update: add 1 modulo the counter's modulus (20_memory.md R41, 43_accumulate_window.md R114). -/
def Memory.bump (modulus : Nat) (m : Memory) (k : Nat) : Memory :=
  m.write k ((m.read k + 1) % modulus)

/-- One counter update per coordinate pair, in order (43_accumulate_window.md R114). -/
def Memory.accumulate (cfg : Config) (m : Memory) (coords : List (Nat × Nat)) : Memory :=
  coords.foldl (fun m xy => m.bump (counterModulus cfg) (pixelIndex cfg xy)) m

/-- All counters in index order: the `data` of a snapshot (20_memory.md R43). -/
def Memory.dump (cfg : Config) (m : Memory) : List Nat := (List.range (pixelCount cfg)).map m.read

/-! ### The Reassembly Buffer -/

/-- `slice(s, a, b)` (00_scope.md R8). -/
def slice (s : List Byte) (a b : Nat) : List Byte := (s.drop a).take (b - a)

/-- `B <- B ++ c` (20_memory.md R37). -/
def State.append (s : State) (c : List Byte) : State := { s with buf := s.buf ++ c }

/-- `consume_prefix(n)` (20_memory.md R38). -/
def State.consumePrefix (s : State) (n : Nat) : State := { s with buf := slice s.buf n s.buf.length }

/-- `si <- n` (10_state.md R12). -/
def State.setSi (s : State) (n : Nat) : State := { s with si := n }

/-- The word at `si` has arrived in full: the second half of SCAN's `requires` (41_reassembly.md R80). -/
def State.wordArrived (s : State) : Bool := decide (8 * (s.si + 1) ≤ s.buf.length)

/-- PRE is running (10_state.md R13). -/
def State.running (s : State) : Bool := decide (s.mode = .run)

/-- SCAN has a step (41_reassembly.md R80). -/
def State.scanEnabled (s : State) : Bool := s.running && s.wordArrived

/-- PRE is quiescent: running, and SCAN has no step (41_reassembly.md R86). -/
def State.quiescent (s : State) : Bool := s.running && !s.wordArrived

/-- `buf_level` (10_state.md R21). -/
def State.bufLevel (s : State) : Nat := s.buf.length

/-! ### Enabledness -/

/-- Perform an operation where its `requires` holds; where it does not, there is no step and the state does not change
(00_scope.md R8, 44_control.md R134; log entry 2). -/
def State.when (s : State) (requires : Bool) (act : State → Host.Outcome State Fault Refusal) :
    Host.Outcome State Fault Refusal :=
  if requires then act s else .next s

/-! ### The one fault -/

/-- `raise BufferOverflow`: taking the fault is `mode <- FAULTED` and nothing else (60_exceptions.md R144, R148).
The only return is RESET (R149). -/
def State.raiseBufferOverflow (s : State) : State := { s with mode := .faulted }

/-- Appending `n` bytes would exceed BUF_CAP (40_ingress.md R71). -/
def State.wouldOverflow (s : State) (n : Nat) : Bool :=
  match s.cfg.bufCap with
  | none => false
  | some cap => decide (cap < s.buf.length + n)

/-! ### Recording a packet -/

/-- `emit pkt_out(Packet(P))` (10_state.md R22). -/
def State.emitPacket (s : State) (p : List Byte) : State := { s with pktOut := s.pktOut ++ [p] }

/-- The expected frame number after a packet: the old value plus 1, or with SEQ_RESYNC the observed plus 1, modulo 4096
(43_accumulate_window.md R112, R113). -/
def nextExpected (resync : Bool) (old observed : BitVec 12) : BitVec 12 :=
  if resync then observed + 1 else old + 1

/-- The sequence-state update (20_memory.md R42). -/
def State.advanceSeq (s : State) (chan : BitVec 8) (observed : BitVec 12) : State :=
  { s with seq := s.seq.set chan.toNat (nextExpected s.cfg.seqResync (s.expected chan) observed) chan.isLt }

/-- The pixel increments of one packet (43_accumulate_window.md R114). -/
def State.countPhotons (s : State) (coords : List (Nat × Nat)) : State :=
  { s with img := s.img.accumulate s.cfg coords }

/-- `pkt_count <- pkt_count + 1` (43_accumulate_window.md R115). -/
def State.countPacket (s : State) : State := { s with pktCount := s.pktCount + 1 }

/-- RECORD (43_accumulate_window.md R110). -/
def State.record (s : State) (h : Header) (coords : List (Nat × Nat)) : State :=
  ((((s.checkSeq h.channelId h.frameNumber).advanceSeq h.channelId h.frameNumber).countPhotons coords).countPacket)

/-- DELIVER (41_reassembly.md R84). -/
def State.deliver (s : State) (p : List Byte) : Host.Outcome State Fault Refusal :=
  match decodePacket s.cfg p with
  | none => .fault .wordNotWhole
  | some (h, coords) => .next (((s.emitPacket p).checkOversize p.length).record h coords)

/-! ### The three outcomes of SCAN -/

/-- Outcome ADVANCE (41_reassembly.md R81). -/
def State.advance (s : State) : Host.Outcome State Fault Refusal := .next (s.setSi (s.si + 1))

/-- Cut the packet in front of `si`, remove `n` bytes, rescan from word 1, and deliver (41_reassembly.md R82, R83). -/
def State.cut (s : State) (n : Nat) : Host.Outcome State Fault Refusal :=
  ((s.consumePrefix n).setSi 1).deliver (slice s.buf 0 (8 * s.si))

/-- Outcome NORMAL BOUNDARY: the boundary word stays, as the new word 0 (41_reassembly.md R82). -/
def State.normalBoundary (s : State) : Host.Outcome State Fault Refusal := s.cut (8 * s.si)

/-- Outcome TERMINATOR BOUNDARY: the marker is removed too (41_reassembly.md R83). -/
def State.terminatorBoundary (s : State) : Host.Outcome State Fault Refusal := s.cut (8 * s.si + 8)

/-- Read the word at `si`, classify it and take its outcome (41_reassembly.md R80). -/
def State.examine (s : State) : Host.Outcome State Fault Refusal :=
  match wordAt s.buf s.si with
  | none => .fault .wordNotWhole
  | some w =>
    match classify w with
    | .photon => s.advance
    | .hdr => s.normalBoundary
    | .term => s.terminatorBoundary

/-! ### Rotation -/

/-- ROTATE (43_accumulate_window.md R117, R118). -/
def State.rotate (s : State) (now : Nat) : State :=
  { s with
    snapOut := s.snapOut ++ [{ key := s.winSec, data := s.img.dump s.cfg }]
    img := []
    winSec := now
    renderOut := s.renderOut ++ [s.winSec]
    diagOut := s.diagOut ++ [.windowPackets s.winSec s.pktCount]
    pktCount := 0 }

/-! ### Reset, configuration -/

/-- RESET: everything but the configuration, and the environment's own schedule, is at its reset value
(44_control.md R130, 70_reset_and_hazards.md R160). -/
def State.restart (s : State) (startSec : Nat) : State :=
  { State.resetWith s.cfg startSec with sched := s.sched }

/-- Configure PRE and reset it; a configuration with a zero dimension or counter width is refused (00_scope.md R6). -/
def State.build (xpix ypix cntW : Nat) (imgOrder : ImgOrder) (seqResync : Bool) (bufCap : Option Nat)
    (startSec : Nat) : Host.Outcome State Fault Refusal :=
  if h : 0 < xpix ∧ 0 < ypix ∧ 0 < cntW then
    .next (State.resetWith
      { xpix := xpix, ypix := ypix, cntW := cntW, imgOrder := imgOrder, seqResync := seqResync, bufCap := bufCap,
        xpix_pos := h.1, ypix_pos := h.2.1, cntW_pos := h.2.2 } startSec)
  else .refused .illegalConfig

/-! ### Fetching -/

/-- The instruction a move performs (44_control.md R134). -/
def Move.toInstr : Move → Instr
  | .reset n => .reset n
  | .push c => .push c
  | .scan => .scan
  | .tick n => .tick n
  | .stop => .stop

/-- What is performed next and the state it is performed in: the environment's next move, or with none scheduled PRE's
own move, SCAN (20_memory.md R45, 70_reset_and_hazards.md R178 (a); log entry 1). -/
def State.fetch (s : State) : Instr × State :=
  match s.sched with
  | [] => (.scan, s)
  | m :: ms => (m.toInstr, { s with sched := ms })

/-- `s` running, nothing scheduled, the bytes of `w` at word index `si`, filling up with zero bytes before them where the
buffer is shorter: the next SCAN examines `w` (log entry 11). -/
def State.placeWord (s : State) (w : Word) : State :=
  { s with
    mode := .run
    sched := []
    buf := s.buf.take (8 * s.si) ++ List.replicate (8 * s.si - s.buf.length) 0 ++ wordBytes w }

end Sys2Proof.Machine
end

