-- ==== Sys2Proof/Machine/Control.lean ====
section
/-! DEFINITION. The meanings of RESET and STOP (44_control.md R130 to R134). -/

namespace Sys2Proof.Machine

/-- RESET(start_sec): in every mode, the reset state (44_control.md R130). -/
def execReset (startSec : Nat) (s : State) : Host.Outcome State Fault Refusal := .next (s.restart startSec)

/-- STOP: only when PRE is quiescent, and nothing but the mode changes (44_control.md R132, R133). -/
def execStop (s : State) : Host.Outcome State Fault Refusal :=
  s.when s.quiescent fun s => .next { s with mode := .stopped }

end Sys2Proof.Machine
end

