-- ==== Sys2Proof/Machine/Ingress.lean ====
section
/-! DEFINITION. The meaning of PUSH (40_ingress.md R71, R72). -/

namespace Sys2Proof.Machine

/-- PUSH(c): append the chunk, or take the fault BufferOverflow where it would exceed BUF_CAP (40_ingress.md R71). -/
def execPush (chunk : List Byte) (s : State) : Host.Outcome State Fault Refusal :=
  s.when s.running fun s =>
    if s.wouldOverflow chunk.length then .next s.raiseBufferOverflow else .next (s.append chunk)

end Sys2Proof.Machine
end

