-- ==== Sys2Proof/Machine/Reassembly.lean ====
section
/-! DEFINITION. The meaning of SCAN (41_reassembly.md R80 to R88). -/

namespace Sys2Proof.Machine

/-- SCAN: examine the word at `si` when it has arrived in full (41_reassembly.md R80). -/
def execScan (s : State) : Host.Outcome State Fault Refusal := s.when s.scanEnabled State.examine

end Sys2Proof.Machine
end

