-- ==== Sys2Proof/Machine/Window.lean ====
section
/-! DEFINITION. The meaning of TICK, and the bytes of a snapshot (43_accumulate_window.md R116 to R120, 20_memory.md
R43). -/

namespace Sys2Proof.Machine

/-- TICK(now): rotate when the second has advanced past the window's, else nothing (43_accumulate_window.md R116). -/
def execTick (now : Nat) (s : State) : Host.Outcome State Fault Refusal :=
  s.when s.running fun s => if s.winSec < now then .next (s.rotate now) else .next s

/-- SNAP_BYTES = ceil(CNT_W / 8) (00_scope.md R5). -/
def snapBytes (cfg : Config) : Nat := (cfg.cntW + 7) / 8

/-- The `n` least significant bytes of a counter, least significant first (20_memory.md R43). -/
def counterBytes : Nat → Nat → List Byte
  | 0, _ => []
  | n + 1, v => BitVec.ofNat 8 v :: counterBytes n (v / 256)

/-- The counter whose bytes these are, least significant first (20_memory.md R43). -/
def counterOfBytes : List Byte → Nat
  | [] => 0
  | b :: bs => b.toNat + 256 * counterOfBytes bs

/-- The bytes of a snapshot: every counter in index order, no header, padding or trailer (20_memory.md R43). -/
def serialise (cfg : Config) (data : List Nat) : List Byte := data.flatMap (counterBytes (snapBytes cfg))

/-- Read `n` counters back from a snapshot's bytes with the same rule (20_memory.md R43); bytes that are missing read as
absent bytes of the counter, which is then smaller (log entry 15). -/
def readCounters (cfg : Config) : Nat → List Byte → List Nat
  | 0, _ => []
  | n + 1, bs => counterOfBytes (bs.take (snapBytes cfg)) :: readCounters cfg n (bs.drop (snapBytes cfg))

/-- A snapshot's bytes read back as the whole counter grid (20_memory.md R43). -/
def deserialise (cfg : Config) (bs : List Byte) : List Nat := readCounters cfg (pixelCount cfg) bs

end Sys2Proof.Machine
end

