-- ==== Sys2Proof/Machine/Words.lean ====
section
/-! DEFINITION. The meanings of the four classes of wire word (rows HDR0, HDR, TERM, PHOTON). -/

namespace Sys2Proof.Machine

/-- HDR0: a packet's word 0 is decoded as a Header Record (42_decoder.md R101) and recorded (43_accumulate_window.md
R110): sequence check, sequence advance, packet count. Taken by itself it is the RECORD of the packet that is this
word alone; the packet's photon words add their pixel increments in DELIVER (log entry 8). -/
def execHdr0 (startMarker channelId : BitVec 8) (frameNumber : BitVec 12) (timestamp : BitVec 36) (s : State) :
    Host.Outcome State Fault Refusal :=
  s.when s.running fun s => .next (s.record ⟨startMarker, channelId, frameNumber, timestamp⟩ [])

/-- HDR: a normal boundary at `si` (41_reassembly.md R82). The word itself stays in the buffer as the new word 0, so its
fields act when the packet it heads is delivered (log entry 9). -/
def execHdr (_channelId : BitVec 8) (_frameNumber : BitVec 12) (_timestamp : BitVec 36) (s : State) :
    Host.Outcome State Fault Refusal :=
  s.when s.scanEnabled State.normalBoundary

/-- TERM: a terminator boundary at `si` (41_reassembly.md R83); its low 48 bits are ignored (30_encoding.md R53). -/
def execTerm (_ignored : BitVec 48) (s : State) : Host.Outcome State Fault Refusal :=
  s.when s.scanEnabled State.terminatorBoundary

/-- PHOTON: no boundary, the scan advances (41_reassembly.md R81). The word stays in the buffer; its coordinates count
when its packet is delivered (42_decoder.md R102, R104, 43_accumulate_window.md R114; log entry 9). -/
def execPhoton (_xCoord _yCoord : BitVec 10) (_localTimestamp : BitVec 9) (_wavelengthCode : BitVec 18)
    (_baselineCode : BitVec 17) (s : State) : Host.Outcome State Fault Refusal :=
  s.when s.scanEnabled State.advance

end Sys2Proof.Machine
end

