-- ==== Sys2Proof/Machine/Dispatch.lean ====
section
/-! DEFINITION. The one dispatch from an instruction to its meaning. -/

namespace Sys2Proof.Machine

/-- Every row of the opcode table and its meaning. -/
def exec (i : Instr) (s : State) : Host.Outcome State Fault Refusal :=
  match i with
  | .hdr0 sm ch fr ts => Sys2Proof.Machine.execHdr0 sm ch fr ts s
  | .hdr ch fr ts => Sys2Proof.Machine.execHdr ch fr ts s
  | .term r => Sys2Proof.Machine.execTerm r s
  | .photon x y lt wv bl => Sys2Proof.Machine.execPhoton x y lt wv bl s
  | .reset n => Sys2Proof.Machine.execReset n s
  | .push c => Sys2Proof.Machine.execPush c s
  | .scan => Sys2Proof.Machine.execScan s
  | .tick n => Sys2Proof.Machine.execTick n s
  | .stop => Sys2Proof.Machine.execStop s

end Sys2Proof.Machine
end

