-- ==== Sys2Proof/Machine/Step.lean ====
section
/-! DEFINITION. One step of the machine, and placing a word where the next step examines it. -/

namespace Sys2Proof.Machine

/-- Perform the environment's next move; with none scheduled, PRE's own move, SCAN (20_memory.md R45; log entry 1). -/
def step (s : State) : Host.Outcome State Fault Refusal := exec s.fetch.1 s.fetch.2

/-- `s` with the word whose table bits are `w` placed where the next step examines it (log entry 11). -/
def State.withFetchWord (s : State) (nbits w : Nat) : State := s.placeWord (BitVec.ofNat 64 (w % 2 ^ nbits))

end Sys2Proof.Machine
end

