-- ==== Sys2Proof/Machine/Stream.lean ====
section
/-! DEFINITION. The stream seen as a whole: packets and carry-over as functions of the bytes (41_reassembly.md R89), and
the grammar of the stream a detector is meant to send (30_encoding.md R57). -/

namespace Sys2Proof.Machine

/-- A boundary at a word index: a whole word there of class HDR or TERM, and which. -/
def boundaryClass (b : List Byte) (i : Nat) : Option WordClass :=
  match (wordAt b i).map classify with
  | some .hdr => some .hdr
  | some .term => some .term
  | _ => none

/-- `boundary(b)`: the least word index from 1 on that is a boundary (41_reassembly.md R89). -/
def boundary (b : List Byte) : Option Nat :=
  ((List.range (b.length / 8)).filter (1 ≤ ·)).find? fun i => (boundaryClass b i).isSome

/-- How many bytes a boundary at word index `i` removes: up to a header, or through a terminator (41_reassembly.md R89). -/
def removed (b : List Byte) (i : Nat) : Nat :=
  if boundaryClass b i = some .term then 8 * i + 8 else 8 * i

/-- `packets(b)` on at most `fuel` boundaries. -/
def packetsFuel : Nat → List Byte → List (List Byte)
  | 0, _ => []
  | fuel + 1, b =>
    match boundary b with
    | none => []
    | some i => slice b 0 (8 * i) :: packetsFuel fuel (slice b (removed b i) b.length)

/-- `rest(b)` after at most `fuel` boundaries. -/
def restFuel : Nat → List Byte → List Byte
  | 0, b => b
  | fuel + 1, b =>
    match boundary b with
    | none => b
    | some i => restFuel fuel (slice b (removed b i) b.length)

/-- `packets(b)` (41_reassembly.md R89); every boundary removes at least 8 bytes, so its length is fuel enough. -/
def packets (b : List Byte) : List (List Byte) := packetsFuel b.length b

/-- `rest(b)` (41_reassembly.md R89). -/
def rest (b : List Byte) : List Byte := restFuel b.length b

/-- The grammar of 30_encoding.md R57 on words: `inUnit` says a unit is open. A unit opens with a word whose start_marker
is 0xFF and closes at a TERM or at the next header. R57 bounds the photon words of a unit by a number N that the source
does not give (91_not_in_source.md N4); DESIGN CHOICE: a unit may hold any number of them (log entry 16). R57 says only
that a unit without TERM is followed by another unit; DESIGN CHOICE: a finite stream may end inside such a unit, so what is
accepted is a prefix of a stream of the grammar, and any unit may have its TERM or not (log entry 17). -/
def followsGrammar : Bool → List Word → Bool
  | _, [] => true
  | false, w :: ws => decide (bits w 56 8 = startHdr) && followsGrammar true ws
  | true, w :: ws =>
    match classify w with
    | .photon => followsGrammar true ws
    | .hdr => followsGrammar true ws
    | .term => followsGrammar false ws

end Sys2Proof.Machine
end

