-- ==== Sys2Proof/Safety.lean ====
section
/-! DEFINITION. The terms claims are stated in: which instruction has a step, the invariants of 10_state.md R25 and the
laws of 43_accumulate_window.md, what a delivered packet does, runs of moves, and the fairness of runs without end. -/

namespace Sys2Proof.Machine

/-! ### Enabledness -/

/-- Which instruction has a step in which state (44_control.md R134; for the word classes, the SCAN or DELIVER they are
met in). -/
def hasStep (i : Instr) (s : State) : Bool :=
  match i with
  | .hdr0 _ _ _ _ => s.running
  | .hdr _ _ _ => s.scanEnabled
  | .term _ => s.scanEnabled
  | .photon _ _ _ _ _ => s.scanEnabled
  | .reset _ => true
  | .push _ => s.running
  | .scan => s.scanEnabled
  | .tick _ => s.running
  | .stop => s.quiescent

/-! ### Invariants of 10_state.md R25 -/

/-- Items 1 and 2: `si` is at least 1, it is 1 or the words before it are in the buffer, and every word from 1 up to it
is of class PHOTON. -/
abbrev ScanInv (s : State) : Prop :=
  1 ≤ s.si ∧ (s.si = 1 ∨ 8 * s.si ≤ s.buf.length) ∧
    ∀ j < s.si, 1 ≤ j → (wordAt s.buf j).map classify = some .photon

/-- Item 4: the image holds counters of pixels that exist, each below the modulus, in canonical form. `Seq` has its range
by its type. -/
abbrev ImageInv (s : State) : Prop := s.img.wf ∧ s.img.fits (pixelCount s.cfg) (counterModulus s.cfg)

/-- Item 5: the buffer is within its capacity. -/
abbrev CapacityInv (s : State) : Prop := ∀ cap ∈ s.cfg.bufCap, s.buf.length ≤ cap

/-- Item 6, and 41_reassembly.md R91: every emitted packet is whole words, at least one, and no word after the first is
a boundary. -/
abbrev PacketInv (s : State) : Prop :=
  ∀ p ∈ s.pktOut, p.length % 8 = 0 ∧ 8 ≤ p.length ∧ (words p).tail.all fun w => decide (classify w = .photon)

/-- The invariant of a state of PRE. -/
abbrev Inv (s : State) : Prop := ScanInv s ∧ ImageInv s ∧ CapacityInv s ∧ PacketInv s

/-! ### Reading the traces -/

/-- The Header Record of a packet. -/
def packetHeader (p : List Byte) : Option Header := (words p).head?.map decodeHeader

/-- The packets of one readout channel, in order. -/
def packetsOf (out : List (List Byte)) (chan : BitVec 8) : List (List Byte) :=
  out.filter fun p => decide ((packetHeader p).map Header.channelId = some chan)

/-- How many of these words are Photon Records of pixel `k`. -/
def hits (cfg : Config) (ws : List Word) (k : Nat) : Nat :=
  ws.countP fun w => decide (pixelIndex cfg (reduceCoords cfg (decodePhoton w)) = k)

/-- How many Photon Records of pixel `k` these packets hold. -/
def packetHits (cfg : Config) (out : List (List Byte)) (k : Nat) : Nat :=
  (out.map fun p => hits cfg (words p).tail k).sum

/-- The event is an Oversize. -/
def Diag.isOversize : Diag → Bool
  | .oversize _ => true
  | .seqMismatch _ _ _ => false
  | .windowPackets _ _ => false

/-- The event is a SeqMismatch. -/
def Diag.isMismatch : Diag → Bool
  | .oversize _ => false
  | .seqMismatch _ _ _ => true
  | .windowPackets _ _ => false

/-- The event is a SeqMismatch of this channel. -/
def Diag.isMismatchOf (chan : BitVec 8) : Diag → Bool
  | .oversize _ => false
  | .seqMismatch c _ _ => decide (c = chan)
  | .windowPackets _ _ => false

/-- The key and count of a WindowPackets event. -/
def Diag.window : Diag → Option (Nat × Nat)
  | .oversize _ => none
  | .seqMismatch _ _ _ => none
  | .windowPackets key count => some (key, count)

/-- The information an anomaly event may carry (60_exceptions.md R145). -/
def Diag.legal : Diag → Prop
  | .oversize len => 832 < len ∧ len % 8 = 0
  | .seqMismatch _ expected observed => expected ≠ observed
  | .windowPackets _ _ => True

/-! ### Laws over the traces -/

/-- 43_accumulate_window.md R124: with SEQ_RESYNC = 0, `Seq[c]` is the number of packets of channel `c` modulo 4096, and
the SeqMismatch events of `c` are as many as the packets of `c` whose frame number is not their rank (from 0) modulo
4096. -/
def SeqLaw (s : State) : Prop :=
  s.cfg.seqResync = false → ∀ chan,
    (s.expected chan).toNat = (packetsOf s.pktOut chan).length % 4096 ∧
    s.diagOut.countP (Diag.isMismatchOf chan) =
      (packetsOf s.pktOut chan).zipIdx.countP fun pj =>
        decide ((packetHeader pj.1).map (fun h => h.frameNumber.toNat) ≠ some (pj.2 % 4096))

/-- No count is lost and none is in two snapshots (43_accumulate_window.md R119): for every pixel, what the snapshots hold
and what the live image holds add up to the photons delivered, modulo the counters' modulus. -/
def PixelLaw (s : State) : Prop :=
  ∀ k < pixelCount s.cfg,
    ((s.snapOut.map fun e => e.data.getD k 0).sum + s.img.read k) % counterModulus s.cfg =
      packetHits s.cfg s.pktOut k % counterModulus s.cfg

/-- The three events of every rotation carry the same key, keys strictly increase and lie before the current window
(43_accumulate_window.md R118, R119), every packet is reported in exactly one window or waits to be (R115, R117), and a
snapshot is the whole image (20_memory.md R43). -/
def WindowLaw (s : State) : Prop :=
  s.snapOut.map Snapshot.key = s.renderOut ∧
  (s.diagOut.filterMap Diag.window).map Prod.fst = s.renderOut ∧
  s.renderOut.Pairwise (· < ·) ∧ (∀ key ∈ s.renderOut, key < s.winSec) ∧
  ((s.diagOut.filterMap Diag.window).map Prod.snd).sum + s.pktCount = s.pktOut.length ∧
  ∀ e ∈ s.snapOut, e.data.length = pixelCount s.cfg ∧ ∀ v ∈ e.data, v < counterModulus s.cfg

/-- The counters count the events, and an event carries what 60_exceptions.md R145 says; the oversize packets are those
longer than 832 bytes (R141). -/
def AnomalyLaw (s : State) : Prop :=
  s.nOversize = s.diagOut.countP Diag.isOversize ∧ s.nSeqAnom = s.diagOut.countP Diag.isMismatch ∧
  s.nOversize = s.pktOut.countP (fun p => decide (832 < p.length)) ∧ ∀ e ∈ s.diagOut, e.legal

/-- 41_reassembly.md R89 in a state that may still hold boundaries: what has been emitted, followed by the packets of the
buffer, is the packets of the stream, and the buffer's carry-over is the stream's. -/
def StreamLaw (stream : List Byte) (s : State) : Prop :=
  packets stream = s.pktOut ++ packets s.buf ∧ rest stream = rest s.buf

/-! ### What a delivered packet does -/

/-- What DELIVER of the packet `p`, with Header Record `h` and photon words `ws`, changes between `s` and `t`, in the terms
of 41_reassembly.md R84, R85 and 43_accumulate_window.md R110 to R115; the buffer and the scan index are SCAN's. -/
structure Delivered (p : List Byte) (h : Header) (ws : List Word) (s t : State) : Prop where
  emitted : t.pktOut = s.pktOut ++ [p]
  oversizeCount : t.nOversize = s.nOversize + (if 832 < p.length then 1 else 0)
  mismatchCount : t.nSeqAnom = s.nSeqAnom + (if s.expected h.channelId = h.frameNumber then 0 else 1)
  reported : t.diagOut = s.diagOut ++ (if 832 < p.length then [.oversize p.length] else []) ++
    (if s.expected h.channelId = h.frameNumber then []
     else [.seqMismatch h.channelId (s.expected h.channelId) h.frameNumber])
  advanced : (t.expected h.channelId).toNat =
    ((if s.cfg.seqResync then h.frameNumber.toNat else (s.expected h.channelId).toNat) + 1) % 4096
  otherChannels : ∀ chan, chan ≠ h.channelId → t.expected chan = s.expected chan
  pixels : ∀ k, t.img.read k = (s.img.read k + hits s.cfg ws k) % 2 ^ s.cfg.cntW
  counted : t.pktCount = s.pktCount + 1
  mode : t.mode = s.mode
  winSec : t.winSec = s.winSec
  snapOut : t.snapOut = s.snapOut
  renderOut : t.renderOut = s.renderOut
  cfg : t.cfg = s.cfg
  sched : t.sched = s.sched

/-! ### Runs of moves -/

/-- Perform moves one after another, stopping at the first fault or refusal (20_memory.md R45). -/
def perform : List Move → State → Host.Outcome State Fault Refusal
  | [], s => .next s
  | m :: ms, s =>
    match exec m.toInstr s with
    | .next t => perform ms t
    | .fault f => .fault f
    | .refused r => .refused r

/-- The bytes a move pushes. -/
def Move.bytes : Move → List Byte
  | .reset _ => []
  | .push c => c
  | .scan => []
  | .tick _ => []
  | .stop => []

/-- The stream: the concatenation of all chunks pushed (40_ingress.md R70). -/
def pushedBytes (ms : List Move) : List Byte := ms.flatMap Move.bytes

/-- PUSH, SCAN and TICK: the moves of a run that is neither reset nor stopped. -/
def Move.isStreaming : Move → Bool
  | .reset _ => false
  | .push _ => true
  | .scan => true
  | .tick _ => true
  | .stop => false

/-- PUSH and SCAN. -/
def Move.isDataOnly : Move → Bool
  | .reset _ => false
  | .push _ => true
  | .scan => true
  | .tick _ => false
  | .stop => false

/-! ### Fair runs -/

/-- A run without end: the environment presents a move to every state, and the step performs it (00_scope.md R7,
20_memory.md R45). -/
structure Run where
  states : Nat → State
  moves : Nat → Move
  performed : ∀ n, step { states n with sched := [moves n] } = .next (states (n + 1))

/-- 70_reset_and_hazards.md R178 (a): a SCAN that stays enabled is eventually performed. -/
def Run.ScanFair (r : Run) : Prop :=
  ∀ n, (∀ m ≥ n, (r.states m).scanEnabled = true) → ∃ m ≥ n, r.moves m = .scan

/-- 70_reset_and_hazards.md R178 (b): the host eventually performs TICK again. R178 says it without qualification; DESIGN
CHOICE: it is asked only of a run that stays in RUN for ever from some point on, since TICK has no step in another mode
(44_control.md R134), so a run that keeps leaving RUN and coming back by RESET needs no TICK (log entry 18). -/
def Run.TickRecurs (r : Run) : Prop :=
  ∀ n, (∀ m ≥ n, (r.states m).mode = .run) → ∃ m ≥ n, ∃ now, r.moves m = .tick now

/-- The fairness a liveness claim may take as its premise (70_reset_and_hazards.md R178, the spec's decision D30; the
runs of which TICK is asked are the model's choice, log entry 18); of PUSH and STOP it says nothing. -/
def Run.Fair (r : Run) : Prop := r.ScanFair ∧ r.TickRecurs

end Sys2Proof.Machine
end

