-- ==== Sys2Proof/Certificates/Slice0/Obligations.lean ====
section
/-! DEFINITION. The statements for the provers. Each docstring names the rules of spec/ it formalises. -/

open Sys2Proof Sys2Proof.Machine

/-! ### Encoding -/

/-- Every well-formed instruction that has a word is read back from it, at the position it stands at, with every operand
(30_encoding.md R56, R62; R55 for the position). -/
def Obligations.DecodeOfEncodeIsSame : Prop :=
  ∀ (i : Instr) (p : WordPos) (w : Word),
    i.wf = true → i.position = some p → encode i = some w → decodeWord p w = i

/-- No word is rejected at any position, the instruction it is read as is well formed and stands at that position, and it
encodes to that very word (30_encoding.md R54, R55, R59; 42_decoder.md R103). -/
def Obligations.EncodeOfDecodeIsSame : Prop :=
  ∀ (p : WordPos) (w : Word),
    encode (decodeWord p w) = some w ∧ (decodeWord p w).wf = true ∧ (decodeWord p w).position = some p

/-- The bytes of a word, at the head of any byte sequence, decode to what the word is, leaving the bytes after it; fewer
than 8 bytes are no word (30_encoding.md R50, R62; 20_memory.md R34). -/
def Obligations.DecodeReadsWordBytes : Prop :=
  (∀ (p : WordPos) (w : Word) (tail : List Byte),
    decode p (wordBytes w ++ tail) = .ok (decodeWord p w, tail)) ∧
  ∀ (p : WordPos) (s : List Byte), s.length < 8 → decode p s = .error .partialWord

/-- Words written out from the encodings of 30_encoding.md section 7 and 95_test_vectors.md 2.1 decode to the instructions
they stand for. The last is read by `decodeTableWord`: that a row's bits are read as a word at index 1 or later, and not as
word 0, is the model's choice (log entry 10). -/
def Obligations.SampleWordsDecode : Prop :=
  decodeWord .first 0xFF0300A123456789 = .hdr0 0xFF 3 10 0x123456789 ∧
  decodeWord .later 0xFF03032000000000 = .hdr 3 50 0 ∧
  decodeWord .later 0x0140700800040003 = .photon 5 7 1 2 3 ∧
  decodeWord .later 0xFEFFFFFFFFFFFFFF = .photon 1019 1023 511 262143 131071 ∧
  decodeWord .later 0x7FFF000000ABCDEF = .term 0xABCDEF ∧
  decodeTableWord 64 0x0281401807D001F4 = some (.photon 10 20 3 1000 500)

/-- The byte that arrived first is the most significant byte of the word: the formula of 00_scope.md R8 for `be64`
(20_memory.md R31). -/
def Obligations.WordsAreBigEndian : Prop :=
  ∀ (s : List Byte) (i : Nat) (w : Word), wordAt s i = some w →
    w.toNat = (s.getD (8 * i) 0).toNat * 2 ^ 56 + (s.getD (8 * i + 1) 0).toNat * 2 ^ 48 +
      (s.getD (8 * i + 2) 0).toNat * 2 ^ 40 + (s.getD (8 * i + 3) 0).toNat * 2 ^ 32 +
      (s.getD (8 * i + 4) 0).toNat * 2 ^ 24 + (s.getD (8 * i + 5) 0).toNat * 2 ^ 16 +
      (s.getD (8 * i + 6) 0).toNat * 2 ^ 8 + (s.getD (8 * i + 7) 0).toNat

/-- Every field of both records is the shift and remainder of 30_encoding.md R56 (42_decoder.md R101, R102), and the two
coordinates are then reduced by remainder. -/
def Obligations.FieldsAreShiftAndMask : Prop :=
  ∀ (w : Word) (cfg : Config),
    reduceCoords cfg (decodePhoton w) =
      ((w.toNat >>> 54) % 1024 % cfg.xpix, (w.toNat >>> 44) % 1024 % cfg.ypix) ∧
    (decodeHeader w).startMarker.toNat = (w.toNat >>> 56) % 256 ∧
    (decodeHeader w).channelId.toNat = (w.toNat >>> 48) % 256 ∧
    (decodeHeader w).frameNumber.toNat = (w.toNat >>> 36) % 4096 ∧
    (decodeHeader w).timestamp.toNat = w.toNat % 2 ^ 36 ∧
    (decodePhoton w).xCoord.toNat = (w.toNat >>> 54) % 1024 ∧
    (decodePhoton w).yCoord.toNat = (w.toNat >>> 44) % 1024 ∧
    (decodePhoton w).localTimestamp.toNat = (w.toNat >>> 35) % 512 ∧
    (decodePhoton w).wavelengthCode.toNat = (w.toNat >>> 17) % 2 ^ 18 ∧
    (decodePhoton w).baselineCode.toNat = w.toNat % 2 ^ 17

/-- The classes are the masks and matches of the opcode table, tried on the word (30_encoding.md R54). -/
def Obligations.ClassesAreMaskAndMatch : Prop :=
  ∀ w : Word,
    (classify w = .hdr ↔ w &&& 0xFF00000000000000 = 0xFF00000000000000) ∧
    (classify w = .term ↔ w &&& 0xFFFF000000000000 = 0x7FFF000000000000) ∧
    (classify w = .photon ↔
      w &&& 0xFF00000000000000 ≠ 0xFF00000000000000 ∧ w &&& 0xFFFF000000000000 ≠ 0x7FFF000000000000)

/-- Which photon records are taken for a boundary (30_encoding.md R60). -/
def Obligations.PhotonRecordsThatAlias : Prop :=
  ∀ (x y : BitVec 10) (lt : BitVec 9) (wv : BitVec 18) (bl : BitVec 17),
    classify (photonWord x y lt wv bl) =
      if 1020 ≤ x.toNat then .hdr else if x.toNat = 511 ∧ 1008 ≤ y.toNat then .term else .photon

/-! ### Coordinates and the image -/

/-- Coordinates are reduced by remainder into the image, whatever the bits; an axis of 1024 or more leaves them alone
(42_decoder.md R104); every decoded pair indexes an entry of the image (R106). -/
def Obligations.ReducedCoordinatesIndexImage : Prop :=
  ∀ (cfg : Config) (ph : Photon),
    reduceCoords cfg ph = (ph.xCoord.toNat % cfg.xpix, ph.yCoord.toNat % cfg.ypix) ∧
    (reduceCoords cfg ph).1 < cfg.xpix ∧ (reduceCoords cfg ph).2 < cfg.ypix ∧
    (1024 ≤ cfg.xpix → (reduceCoords cfg ph).1 = ph.xCoord.toNat) ∧
    (1024 ≤ cfg.ypix → (reduceCoords cfg ph).2 = ph.yCoord.toNat) ∧
    pixelIndex cfg (reduceCoords cfg ph) < cfg.xpix * cfg.ypix

/-- `idx` has the formula of each image order and is a bijection from the pixels onto the indexes (20_memory.md R40, the
spec's decision D10). -/
def Obligations.PixelIndexIsBijection : Prop :=
  ∀ cfg : Config,
    (∀ x y, pixelIndex cfg (x, y) =
      match cfg.imgOrder with
      | .xMajor => x * cfg.ypix + y
      | .yMajor => y * cfg.xpix + x) ∧
    (∀ x y, x < cfg.xpix → y < cfg.ypix → pixelIndex cfg (x, y) < cfg.xpix * cfg.ypix) ∧
    (∀ x y x' y', x < cfg.xpix → y < cfg.ypix → x' < cfg.xpix → y' < cfg.ypix →
      pixelIndex cfg (x, y) = pixelIndex cfg (x', y') → x = x' ∧ y = y') ∧
    ∀ k < cfg.xpix * cfg.ypix, ∃ x y, x < cfg.xpix ∧ y < cfg.ypix ∧ pixelIndex cfg (x, y) = k

/-- A packet of n words decodes to the Header Record of word 0 and n - 1 reduced pairs, one per later word in word order
(42_decoder.md R100, R105). -/
def Obligations.PacketDecodesWordByWord : Prop :=
  ∀ (cfg : Config) (p : List Byte), p.length % 8 = 0 → 8 ≤ p.length →
    ∃ w h coords, wordAt p 0 = some w ∧ decodePacket cfg p = some (h, coords) ∧ h = decodeHeader w ∧
      coords.length = p.length / 8 - 1 ∧
      ∀ i, i + 1 < p.length / 8 → ∃ v, wordAt p (i + 1) = some v ∧ coords[i]? = some (reduceCoords cfg (decodePhoton v))

/-- A snapshot's bytes are SNAP_BYTES per counter, counters in index order, least significant byte first, with nothing
before, between or after them; reading them back gives the same counters (20_memory.md R43, the spec's decision D11). -/
def Obligations.SnapshotBytesRoundTrip : Prop :=
  ∀ (cfg : Config) (data : List Nat), data.length = pixelCount cfg → (∀ v ∈ data, v < counterModulus cfg) →
    (serialise cfg data).length = cfg.xpix * cfg.ypix * ((cfg.cntW + 7) / 8) ∧
    (∀ k j, k < cfg.xpix * cfg.ypix → j < (cfg.cntW + 7) / 8 →
      ∃ b, (serialise cfg data)[k * ((cfg.cntW + 7) / 8) + j]? = some b ∧
        b.toNat = (data.getD k 0 >>> (8 * j)) % 256) ∧
    deserialise cfg (serialise cfg data) = data

/-- PRE is refused exactly with a zero dimension or counter width, and built otherwise, in the reset state; no pixel with
a coordinate of 1024 or more is ever addressed (00_scope.md R6, the spec's decision D7). -/
def Obligations.IllegalConfigurationRefused : Prop :=
  (∀ (xpix ypix cntW : Nat) (order : ImgOrder) (resync : Bool) (cap : Option Nat) (sec : Nat),
    (xpix = 0 ∨ ypix = 0 ∨ cntW = 0 → State.build xpix ypix cntW order resync cap sec = .refused .illegalConfig) ∧
    (0 < xpix → 0 < ypix → 0 < cntW → ∃ cfg : Config,
      cfg.xpix = xpix ∧ cfg.ypix = ypix ∧ cfg.cntW = cntW ∧ cfg.imgOrder = order ∧ cfg.seqResync = resync ∧
      cfg.bufCap = cap ∧ State.build xpix ypix cntW order resync cap sec = .next (State.resetWith cfg sec))) ∧
  ∀ (cfg : Config) (ph : Photon), (reduceCoords cfg ph).1 < 1024 ∧ (reduceCoords cfg ph).2 < 1024

/-! ### RESET -/

/-- RESET(start_sec) has a step in every state and leaves the reset state, whatever was before (44_control.md R130,
10_state.md R26, with the spec's decisions D5, D13, D18, D20, D21, D28). -/
def Obligations.ResetLeavesResetState : Prop :=
  ∀ (n : Nat) (s : State), ∃ t, exec (.reset n) s = .next t ∧
    t.mode = .run ∧ t.buf = [] ∧ t.si = 1 ∧ (∀ c, t.expected c = 0) ∧ (∀ k, t.img.read k = 0) ∧ t.winSec = n ∧
    t.pktCount = 0 ∧ t.nSeqAnom = 0 ∧ t.nOversize = 0 ∧ t.pktOut = [] ∧ t.snapOut = [] ∧ t.renderOut = [] ∧
    t.diagOut = [] ∧ t.cfg = s.cfg ∧ t.sched = s.sched

/-- The machine's reset state is the state RESET leaves, with nothing scheduled; its configuration and start second are
the model's free values (log entries 3, 4), of which nothing is said. -/
def Obligations.MachineStartsInResetState : Prop :=
  State.reset.mode = .run ∧ State.reset.buf = [] ∧ State.reset.si = 1 ∧ (∀ c, State.reset.expected c = 0) ∧
  (∀ k, State.reset.img.read k = 0) ∧ State.reset.pktCount = 0 ∧ State.reset.nSeqAnom = 0 ∧
  State.reset.nOversize = 0 ∧ State.reset.pktOut = [] ∧ State.reset.snapOut = [] ∧ State.reset.renderOut = [] ∧
  State.reset.diagOut = [] ∧ State.reset.sched = []

/-! ### PUSH -/

/-- PUSH of a chunk that fits appends it and changes nothing else (40_ingress.md R71, 20_memory.md R37). -/
def Obligations.PushAppendsChunk : Prop :=
  ∀ (c : List Byte) (s : State), s.mode = .run → (∀ cap ∈ s.cfg.bufCap, s.buf.length + c.length ≤ cap) →
    exec (.push c) s = .next { s with buf := s.buf ++ c }

/-- PUSH past a finite BUF_CAP takes the fault BufferOverflow: the mode is FAULTED and all other state unchanged; a faulted
state is left by RESET alone; with BUF_CAP infinite PUSH never changes the mode (60_exceptions.md R144, the spec's decisions
D12 and D29). -/
def Obligations.PushOverflowFaults : Prop :=
  (∀ (c : List Byte) (s : State) (cap : Nat), s.mode = .run → s.cfg.bufCap = some cap →
    cap < s.buf.length + c.length → exec (.push c) s = .next { s with mode := .faulted }) ∧
  (∀ (i : Instr) (s t : State), s.mode = .faulted → (∀ n, i ≠ .reset n) → exec i s = .next t → t = s) ∧
  ∀ (c : List Byte) (s t : State), s.cfg.bufCap = none → exec (.push c) s = .next t → t.mode = s.mode

/-- PUSH of the empty chunk changes nothing, in RUN with the buffer within its capacity (40_ingress.md R72, the spec's
decision D15; the capacity is 10_state.md R25 item 5). -/
def Obligations.PushEmptyChangesNothing : Prop :=
  ∀ s : State, s.mode = .run → CapacityInv s → exec (.push []) s = .next s

/-- Bytes already in the buffer keep their values and their words under a PUSH (20_memory.md R37, R39). -/
def Obligations.PushKeepsEarlierBytes : Prop :=
  ∀ (c : List Byte) (s t : State), exec (.push c) s = .next t →
    (∀ a < s.buf.length, t.buf[a]? = s.buf[a]?) ∧ ∀ i w, wordAt s.buf i = some w → wordAt t.buf i = some w

/-! ### SCAN and the wire words -/

/-- SCAN of a word of class PHOTON advances `si` and changes nothing else (41_reassembly.md R81). -/
def Obligations.ScanPhotonAdvances : Prop :=
  ∀ (s : State) (w : Word), s.mode = .run → wordAt s.buf s.si = some w → classify w = .photon →
    exec .scan s = .next { s with si := s.si + 1 }

/-- SCAN of a word of class HDR cuts the packet in front of it, keeps the word as the new word 0, rescans from 1 and
delivers (41_reassembly.md R82, R84). -/
def Obligations.ScanHeaderIsNormalBoundary : Prop :=
  ∀ (s : State) (w : Word), s.mode = .run → 1 ≤ s.si → ImageInv s → wordAt s.buf s.si = some w → classify w = .hdr →
    ∃ w0 ws t, words (s.buf.take (8 * s.si)) = w0 :: ws ∧ exec .scan s = .next t ∧
      t.buf = s.buf.drop (8 * s.si) ∧ wordAt t.buf 0 = some w ∧ t.si = 1 ∧
      Delivered (s.buf.take (8 * s.si)) (decodeHeader w0) ws s t

/-- SCAN of a word of class TERM cuts the packet in front of it, removes the marker too, rescans from 1 and delivers
(41_reassembly.md R83, R84). -/
def Obligations.ScanTerminatorIsBoundary : Prop :=
  ∀ (s : State) (w : Word), s.mode = .run → 1 ≤ s.si → ImageInv s → wordAt s.buf s.si = some w → classify w = .term →
    ∃ w0 ws t, words (s.buf.take (8 * s.si)) = w0 :: ws ∧ exec .scan s = .next t ∧
      t.buf = s.buf.drop (8 * s.si + 8) ∧ t.si = 1 ∧
      Delivered (s.buf.take (8 * s.si)) (decodeHeader w0) ws s t

/-- The rows HDR, TERM and PHOTON, with any operands, run where the word at `si` has arrived: HDR is the normal boundary,
TERM the terminator boundary, PHOTON the advance, with the effect 41_reassembly.md R81 to R84 give the SCAN that meets such
a word. That a word class has a meaning by itself is the model's reading (log entry 9). -/
def Obligations.WordRowsAreScanOutcomes : Prop :=
  ∀ s : State, s.mode = .run → 1 ≤ s.si → ImageInv s → 8 * (s.si + 1) ≤ s.buf.length →
    ∃ w0 ws, words (s.buf.take (8 * s.si)) = w0 :: ws ∧
      (∀ ch fr ts, ∃ t, exec (.hdr ch fr ts) s = .next t ∧ t.buf = s.buf.drop (8 * s.si) ∧ t.si = 1 ∧
        Delivered (s.buf.take (8 * s.si)) (decodeHeader w0) ws s t) ∧
      (∀ r, ∃ t, exec (.term r) s = .next t ∧ t.buf = s.buf.drop (8 * s.si + 8) ∧ t.si = 1 ∧
        Delivered (s.buf.take (8 * s.si)) (decodeHeader w0) ws s t) ∧
      ∀ x y lt wv bl, exec (.photon x y lt wv bl) s = .next { s with si := s.si + 1 }

/-- SCAN runs the word it examines: it is the meaning of the instruction that word decodes to at its position
(41_reassembly.md R80, 30_encoding.md R55; the word rows' meanings are the model's reading, log entry 9). -/
def Obligations.ScanRunsDecodedWord : Prop :=
  ∀ (s : State) (w : Word), wordAt s.buf s.si = some w → exec .scan s = exec (decodeWord .later w) s

/-- While the word at `si` has not arrived in full SCAN makes no progress and nothing changes (41_reassembly.md R86); that
this is a next state is the model's choice (log entry 2). -/
def Obligations.ScanWaitsForWholeWord : Prop :=
  ∀ s : State, s.buf.length < 8 * (s.si + 1) → exec .scan s = .next s

/-- A boundary right after word 0 delivers the header alone: the shortest packet, no pixel touched
(41_reassembly.md R87). -/
def Obligations.HeaderOnlyPacketDelivered : Prop :=
  ∀ (s : State) (w0 w : Word), s.mode = .run → s.si = 1 → wordAt s.buf 0 = some w0 →
    wordAt s.buf 1 = some w → classify w ≠ .photon →
    ∃ t, exec .scan s = .next t ∧ t.pktOut = s.pktOut ++ [s.buf.take 8] ∧ (s.buf.take 8).length = 8 ∧
      (t.expected (decodeHeader w0).channelId).toNat =
        ((if s.cfg.seqResync then (decodeHeader w0).frameNumber.toNat
          else (s.expected (decodeHeader w0).channelId).toNat) + 1) % 4096 ∧
      t.pktCount = s.pktCount + 1 ∧ ∀ k, t.img.read k = s.img.read k

/-- The oversize check is strict: a boundary flags Oversize exactly when the packet is longer than 832 bytes, once, with
its length, before the sequence check's event, and either way the packet is recorded: every one of its photon words is
counted, its channel's expected frame advances and the packet is counted (41_reassembly.md R85, the spec's decision D25;
60_exceptions.md R141, R147). -/
def Obligations.OversizeFlaggedIffLonger : Prop :=
  ∀ (s : State) (w w0 : Word), s.mode = .run → 1 ≤ s.si → ImageInv s → wordAt s.buf s.si = some w →
    classify w ≠ .photon → wordAt s.buf 0 = some w0 →
    ∃ t events, exec .scan s = .next t ∧
      t.nOversize = s.nOversize + (if 832 < 8 * s.si then 1 else 0) ∧
      t.diagOut = s.diagOut ++ (if 832 < 8 * s.si then [.oversize (8 * s.si)] else []) ++ events ∧
      (∀ e ∈ events, e.isOversize = false) ∧
      (∀ k, t.img.read k =
        (s.img.read k + hits s.cfg (words (s.buf.take (8 * s.si))).tail k) % 2 ^ s.cfg.cntW) ∧
      (t.expected (decodeHeader w0).channelId).toNat =
        ((if s.cfg.seqResync then (decodeHeader w0).frameNumber.toNat
          else (s.expected (decodeHeader w0).channelId).toNat) + 1) % 4096 ∧
      t.pktCount = s.pktCount + 1

/-- The sequence check and advance of a packet delivered at a boundary: a frame number that is the expected one flags
nothing, any other flags one SeqMismatch with the expected value before the update, and either way the channel's expected
value advances from the old one by 1 modulo 4096, no other channel's does, the photons are counted and so is the packet
(43_accumulate_window.md R111, R112, R115; SEQ_RESYNC = 0, the spec's decision D6). -/
def Obligations.BoundaryChecksSequence : Prop :=
  ∀ (s : State) (w w0 : Word), s.mode = .run → 1 ≤ s.si → ImageInv s → s.cfg.seqResync = false →
    wordAt s.buf s.si = some w → classify w ≠ .photon → wordAt s.buf 0 = some w0 →
    ∃ t events, exec .scan s = .next t ∧ (∀ e ∈ events, e.isMismatch = false) ∧
      t.diagOut = s.diagOut ++ events ++
        (if s.expected (decodeHeader w0).channelId = (decodeHeader w0).frameNumber then []
         else [.seqMismatch (decodeHeader w0).channelId (s.expected (decodeHeader w0).channelId)
           (decodeHeader w0).frameNumber]) ∧
      t.nSeqAnom = s.nSeqAnom +
        (if s.expected (decodeHeader w0).channelId = (decodeHeader w0).frameNumber then 0 else 1) ∧
      (t.expected (decodeHeader w0).channelId).toNat = ((s.expected (decodeHeader w0).channelId).toNat + 1) % 4096 ∧
      (∀ c, c ≠ (decodeHeader w0).channelId → t.expected c = s.expected c) ∧
      (∀ k, t.img.read k =
        (s.img.read k + hits s.cfg (words (s.buf.take (8 * s.si))).tail k) % 2 ^ s.cfg.cntW) ∧
      t.pktCount = s.pktCount + 1

/-- HDR0 records the header: a frame number that is the expected one flags nothing, any other flags one SeqMismatch with
the expected value before the update; the expected value advances by 1 modulo 4096, or with SEQ_RESYNC to the observed
plus 1; the packet is counted; nothing else changes (43_accumulate_window.md R110 to R113, R115; 60_exceptions.md
R142). That the row HDR0, taken by itself, is the RECORD of the packet that is this word alone is the model's reading (log
entry 8). -/
def Obligations.HeaderWordIsRecorded : Prop :=
  ∀ (sm ch : BitVec 8) (fr : BitVec 12) (ts : BitVec 36) (s : State), s.mode = .run →
    ∃ t, exec (.hdr0 sm ch fr ts) s = .next t ∧
      (s.expected ch = fr → t.nSeqAnom = s.nSeqAnom ∧ t.diagOut = s.diagOut) ∧
      (s.expected ch ≠ fr → t.nSeqAnom = s.nSeqAnom + 1 ∧
        t.diagOut = s.diagOut ++ [.seqMismatch ch (s.expected ch) fr]) ∧
      (s.cfg.seqResync = false → (t.expected ch).toNat = ((s.expected ch).toNat + 1) % 4096) ∧
      (s.cfg.seqResync = true → (t.expected ch).toNat = (fr.toNat + 1) % 4096) ∧
      (∀ c, c ≠ ch → t.expected c = s.expected c) ∧ t.pktCount = s.pktCount + 1 ∧
      t.mode = s.mode ∧ t.buf = s.buf ∧ t.si = s.si ∧ t.img = s.img ∧ t.winSec = s.winSec ∧
      t.nOversize = s.nOversize ∧ t.pktOut = s.pktOut ∧ t.snapOut = s.snapOut ∧ t.renderOut = s.renderOut ∧
      t.cfg = s.cfg ∧ t.sched = s.sched

/-- A counter update adds 1 modulo 2^CNT_W to its own counter, wrapping to 0 from the largest value, and leaves every
other counter alone; the form stays canonical (43_accumulate_window.md R114, 20_memory.md R41). -/
def Obligations.CounterWrapsAtItsWidth : Prop :=
  ∀ (cfg : Config) (m : Memory) (k : Nat), m.wf → k < pixelCount cfg →
    m.fits (pixelCount cfg) (counterModulus cfg) →
    (m.bump (counterModulus cfg) k).wf ∧ (m.bump (counterModulus cfg) k).fits (pixelCount cfg) (counterModulus cfg) ∧
    (m.bump (counterModulus cfg) k).read k = (if m.read k = 2 ^ cfg.cntW - 1 then 0 else m.read k + 1) ∧
    ∀ j, j ≠ k → (m.bump (counterModulus cfg) k).read j = m.read j

/-- No bit of the opaque fields reaches anything but the packet's own bytes: two buffers of one length whose later words
have the same coordinates, and whose word 0 has the same channel and frame number, leave the same state after a SCAN but
for the bytes in the buffer and on pkt_out (30_encoding.md R61). -/
def Obligations.OpaqueFieldsHaveNoEffect : Prop :=
  ∀ (s t : State) (b : List Byte), b.length = s.buf.length →
    (∀ i, 1 ≤ i → (wordAt b i).map (fun w => ((decodePhoton w).xCoord, (decodePhoton w).yCoord)) =
      (wordAt s.buf i).map (fun w => ((decodePhoton w).xCoord, (decodePhoton w).yCoord))) →
    ((wordAt b 0).map (fun w => ((decodeHeader w).channelId, (decodeHeader w).frameNumber)) =
      (wordAt s.buf 0).map (fun w => ((decodeHeader w).channelId, (decodeHeader w).frameNumber))) →
    1 ≤ s.si → exec .scan s = .next t →
    ∃ t' : State, exec .scan { s with buf := b } = .next t' ∧ { t' with buf := t.buf, pktOut := t.pktOut } = t ∧
      t'.buf.length = t.buf.length ∧ t'.pktOut.map List.length = t.pktOut.map List.length

/-- The sequence check never alters the data path: whatever the expected frame numbers were, a SCAN does the same to
everything but `Seq`, `n_seq_anom` and diag_out (60_exceptions.md R157, 43_accumulate_window.md R111). -/
def Obligations.SequenceStateNeverAltersData : Prop :=
  ∀ (s t : State) (q : Vector (BitVec 12) 256), exec .scan s = .next t →
    ∃ t' : State, exec .scan { s with seq := q } = .next t' ∧
      { t' with seq := t.seq, nSeqAnom := t.nSeqAnom, diagOut := t.diagOut } = t

/-! ### TICK -/

/-- TICK of a later second rotates: the snapshot of every counter in index order keyed by the ended second, the render
trigger, the packet count, then a zero image, the new second and a zero count; nothing else changes
(43_accumulate_window.md R116, R117, R118, R120). -/
def Obligations.TickRotatesOnLaterSecond : Prop :=
  ∀ (now : Nat) (s : State), s.mode = .run → s.winSec < now →
    ∃ data t, exec (.tick now) s = .next t ∧ data.length = s.cfg.xpix * s.cfg.ypix ∧
      (∀ k < s.cfg.xpix * s.cfg.ypix, data[k]? = some (s.img.read k)) ∧
      t.snapOut = s.snapOut ++ [{ key := s.winSec, data := data }] ∧ (∀ k, t.img.read k = 0) ∧ t.winSec = now ∧
      t.renderOut = s.renderOut ++ [s.winSec] ∧
      t.diagOut = s.diagOut ++ [.windowPackets s.winSec s.pktCount] ∧ t.pktCount = 0 ∧
      t.mode = s.mode ∧ t.buf = s.buf ∧ t.si = s.si ∧ t.seq = s.seq ∧ t.nSeqAnom = s.nSeqAnom ∧
      t.nOversize = s.nOversize ∧ t.pktOut = s.pktOut ∧ t.cfg = s.cfg ∧ t.sched = s.sched

/-- TICK of the window's own second or an earlier one changes nothing (43_accumulate_window.md R116, in RUN). That a TICK
without a step, in STOPPED or FAULTED, answers the same state is the model's choice (log entry 2, with 44_control.md
R134). -/
def Obligations.TickIgnoresEarlierSecond : Prop :=
  ∀ (now : Nat) (s : State), now ≤ s.winSec → exec (.tick now) s = .next s

/-- The rotation law: crossing one second gives exactly one snapshot, of the ended second, and a zero image; the same
second again gives nothing; a window with no packet and a zero image is still snapshotted, as zeros
(43_accumulate_window.md R125, which the spec derives from R116, R117). -/
def Obligations.OneSnapshotPerCrossedSecond : Prop :=
  ∀ (n : Nat) (s : State), s.mode = .run → s.winSec = n →
    ∃ data t, perform [.tick (n + 1)] s = .next t ∧ t.snapOut = s.snapOut ++ [{ key := n, data := data }] ∧
      (∀ k, t.img.read k = 0) ∧ perform [.tick (n + 1), .tick (n + 1)] s = .next t ∧
      (s.pktCount = 0 → (∀ k, s.img.read k = 0) →
        data = List.replicate (s.cfg.xpix * s.cfg.ypix) 0 ∧ t.diagOut = s.diagOut ++ [.windowPackets n 0])

/-! ### STOP and enabledness -/

/-- STOP when PRE is quiescent sets the mode to STOPPED; the image, the carry-over and the counts stay as they are and
nothing is emitted (44_control.md R132, the spec's decision D16). -/
def Obligations.StopOnlyChangesMode : Prop :=
  ∀ s : State, s.mode = .run → s.buf.length < 8 * (s.si + 1) → exec .stop s = .next { s with mode := .stopped }

/-- Which instruction has a step is the table of 44_control.md R134 (the word classes have the step of the SCAN or the
DELIVER they are met in), and one that has none changes nothing, emits nothing and does not fault. That having no step is
answered by an unchanged next state is the model's choice (log entry 2), and so is the word classes' part (log entries 8
and 9). -/
def Obligations.NoStepChangesNothing : Prop :=
  ∀ (i : Instr) (s : State),
    (hasStep i s = true ↔
      match i with
      | .reset _ => True
      | .push _ | .tick _ | .hdr0 _ _ _ _ => s.mode = .run
      | .scan | .hdr _ _ _ | .term _ | .photon _ _ _ _ _ => s.mode = .run ∧ 8 * (s.si + 1) ≤ s.buf.length
      | .stop => s.mode = .run ∧ s.buf.length < 8 * (s.si + 1)) ∧
    (hasStep i s = false → exec i s = .next s)

/-- Nothing is refused, and nothing faults but from a scan index of 0, which no run reaches: SCAN never faults
(41_reassembly.md R80) and nothing in DELIVER or RECORD can fail (R84, 43_accumulate_window.md R110). The model's own part:
an instruction without a step (44_control.md R134) answers the same state (log entry 2), the fault at index 0 (log entry
7), and that the word rows have meanings by themselves (log entries 8 and 9). -/
def Obligations.NothingFaultsOrIsRefused : Prop :=
  ∀ (i : Instr) (s : State), (∃ t, exec i s = .next t) ∨ (s.si = 0 ∧ exec i s = .fault .wordNotWhole)

/-! ### The step -/

/-- A step performs the environment's next move, in the state without it (20_memory.md R45; the schedule is the model's
own field, log entry 1). -/
def Obligations.StepPerformsScheduledMove : Prop :=
  ∀ (s : State) (m : Move) (ms : List Move), s.sched = m :: ms →
    step s = exec m.toInstr { s with sched := ms }

/-- A step with nothing scheduled runs the instruction the word at `si` decodes to; with that word not yet whole it waits,
unchanged (41_reassembly.md R80, R86). The model's own part: that a step with nothing scheduled is SCAN (log entry 1), that
a word has a meaning by itself (log entry 9), and that waiting is a next state (log entry 2). -/
def Obligations.StepRunsDecodedWord : Prop :=
  (∀ (s : State) (w : Word), s.sched = [] → wordAt s.buf s.si = some w →
    step s = exec (decodeWord .later w) s) ∧
  ∀ s : State, s.sched = [] → s.buf.length < 8 * (s.si + 1) → step s = .next s

/-- A word placed for the next step is the word that step runs (30_encoding.md R55, 41_reassembly.md R80). The model's own
part: the loading of a word (log entry 11), reading a row's bits as a word at index 1 or later (log entry 10), that a word
has a meaning by itself (log entry 9), and that a step with nothing scheduled is SCAN (log entry 1). -/
def Obligations.PlacedWordIsRun : Prop :=
  ∀ (s : State) (w : Nat), w < 2 ^ 64 → ∃ i, decodeTableWord 64 w = some i ∧
    step (s.withFetchWord 64 w) = exec i (s.withFetchWord 64 w)

/-- No step writes the configuration (00_scope.md R5, 70_reset_and_hazards.md R160). -/
def Obligations.StepKeepsConfiguration : Prop :=
  ∀ s t : State, step s = .next t → t.cfg = s.cfg

/-- Where PRE is not running, a step leaves everything but the schedule as it is, unless the move is RESET
(10_state.md R25 item 7, 44_control.md R134). -/
def Obligations.OnlyResetLeavesStopped : Prop :=
  ∀ s t : State, s.mode ≠ .run → step s = .next t → (∀ n, s.sched.head? ≠ some (.reset n)) →
    t = { s with sched := s.sched.tail }

/-- A step that is no RESET drops from the front of the buffer nothing, the words before `si`, or those and the marker,
which only a SCAN does, and puts after what is left exactly the bytes of the move performed, where it leaves PRE running
(a PUSH without a step or past the capacity adds none); so after any run of PUSH, SCAN and TICK from reset, with BUF_CAP
infinite, the buffer is the stream with a multiple of 8 bytes removed from its front (10_state.md R25 item 3, which the
spec derives; R11; 20_memory.md R33, R37, R38). -/
def Obligations.BufferStaysOnWordGrid : Prop :=
  (∀ s t : State, step s = .next t → (∀ n, s.sched.head? ≠ some (.reset n)) →
    ∃ n, (n = 0 ∨ n = 8 * s.si ∨ n = 8 * s.si + 8) ∧ n ≤ s.buf.length ∧
      (n ≠ 0 → s.sched.head? = none ∨ s.sched.head? = some .scan) ∧
      t.buf = s.buf.drop n ++ (if t.mode = .run then (s.sched.head?.map Move.bytes).getD [] else [])) ∧
  ∀ (cfg : Config) (sec : Nat) (ms : List Move) (t : State), cfg.bufCap = none →
    (∀ m ∈ ms, m.isStreaming = true) → perform ms (State.resetWith cfg sec) = .next t →
    ∃ k, 8 * k ≤ (pushedBytes ms).length ∧ t.buf = (pushedBytes ms).drop (8 * k)

/-! ### Invariants every step keeps -/

/-- The reset state of every configuration meets the invariant and the laws. -/
def Obligations.ResetMeetsInvariants : Prop :=
  (∀ (cfg : Config) (n : Nat), Inv (State.resetWith cfg n) ∧ SeqLaw (State.resetWith cfg n) ∧
    PixelLaw (State.resetWith cfg n) ∧ WindowLaw (State.resetWith cfg n) ∧ AnomalyLaw (State.resetWith cfg n)) ∧
  Inv State.reset

/-- Every step keeps the invariant of 10_state.md R25 (items 1, 2, 4, 5, 6) with 41_reassembly.md R91. -/
def Obligations.StepKeepsInvariant : Prop :=
  ∀ s t : State, Inv s → step s = .next t → Inv t

/-- The sequence law holds at reset and every step keeps it (43_accumulate_window.md R124, which the spec derives from R111,
R112). -/
def Obligations.StepKeepsSequenceLaw : Prop :=
  (∀ (cfg : Config) (n : Nat), SeqLaw (State.resetWith cfg n)) ∧
  ∀ s t : State, SeqLaw s → step s = .next t → SeqLaw t

/-- Every step keeps the conservation of counts: no photon of a delivered packet is lost and none is in two snapshots
(43_accumulate_window.md R114, R117, R119). -/
def Obligations.StepConservesPhotonCounts : Prop :=
  ∀ s t : State, ImageInv s → PixelLaw s → step s = .next t → PixelLaw t

/-- Every step keeps the law of windows: one snapshot, one render trigger and one packet count for each ended second,
seconds strictly increasing, every packet reported once, every snapshot a whole image
(43_accumulate_window.md R115 to R120). -/
def Obligations.StepKeepsWindowLaw : Prop :=
  ∀ s t : State, ImageInv s → WindowLaw s → step s = .next t → WindowLaw t

/-- Every step keeps the law of anomalies: each counter is the number of its events, the events carry what
60_exceptions.md R145 says, and the oversize events are as many as the oversize packets (R141, R142). -/
def Obligations.StepKeepsAnomalyLaw : Prop :=
  ∀ s t : State, AnomalyLaw s → step s = .next t → AnomalyLaw t

/-- Every step that is no RESET keeps the stream law: the packets emitted, followed by the packets still in the buffer, are
the packets of the stream, and the buffer's carry-over is the stream's; the stream grows by the bytes the step appends
(41_reassembly.md R89, which the spec derives from R80 to R83). -/
def Obligations.StepKeepsStreamLaw : Prop :=
  ∀ (s t : State) (stream : List Byte), ScanInv s → StreamLaw stream s → step s = .next t →
    (∀ n, s.sched.head? ≠ some (.reset n)) →
    StreamLaw (stream ++ (if t.mode = .run then (s.sched.head?.map Move.bytes).getD [] else [])) t

/-! ### The stream as a whole -/

/-- SCAN steps with nothing else between them reach a quiescent state, in at most as many as the buffer has words
(41_reassembly.md R93, which the spec derives from R80 to R83). -/
def Obligations.DrainTerminates : Prop :=
  ∀ s : State, s.mode = .run → 1 ≤ s.si →
    ∃ n ≤ s.buf.length / 8, ∃ t, perform (List.replicate n .scan) s = .next t ∧ t.quiescent = true

/-- The packets and the carry-over are functions of the stream alone: in a quiescent state reached from reset by PUSH, SCAN
and TICK in any order, pkt_out is `packets(S)` and B is `rest(S)`; in any other state pkt_out is a prefix of `packets(S)`;
and no word before `si` is a boundary (41_reassembly.md R89, which the spec derives from R80 to R83). -/
def Obligations.PacketsAreFunctionOfStream : Prop :=
  ∀ (cfg : Config) (n : Nat) (ms : List Move) (t : State), cfg.bufCap = none →
    (∀ m ∈ ms, m.isStreaming = true) → perform ms (State.resetWith cfg n) = .next t →
    (∃ more, packets (pushedBytes ms) = t.pktOut ++ more) ∧
    (t.quiescent = true → t.pktOut = packets (pushedBytes ms) ∧ t.buf = rest (pushedBytes ms)) ∧
    ∀ j, 1 ≤ j → j < t.si → boundaryClass t.buf j = none

/-- Chunk boundaries carry no meaning: from any state that meets the invariant, two runs of PUSH and SCAN that push the same
bytes and end quiescent end in the same state (41_reassembly.md R90). -/
def Obligations.ChunkingDoesNotMatter : Prop :=
  ∀ (s t t' : State) (ms ms' : List Move), s.mode = .run → s.cfg.bufCap = none → ScanInv s →
    (∀ m ∈ ms, m.isDataOnly = true) → (∀ m ∈ ms', m.isDataOnly = true) → pushedBytes ms = pushedBytes ms' →
    perform ms s = .next t → perform ms' s = .next t' → t.quiescent = true → t'.quiescent = true → t = t'

/-- A PUSH while SCAN has a step may come before or after it: the result is the same (40_ingress.md R71, the spec's decision
D15; 41_reassembly.md R90). -/
def Obligations.PushAndScanCommute : Prop :=
  ∀ (s : State) (c : List Byte), s.cfg.bufCap = none → s.scanEnabled = true →
    perform [.push c, .scan] s = perform [.scan, .push c] s

/-- In a stream that follows the grammar, every packet begins with a word whose start_marker is 0xFF: PRE keeps the framing
the sender meant (30_encoding.md R57, 41_reassembly.md R94, 70_reset_and_hazards.md R162). The spec gives no largest number
of photon words in a unit; the model's grammar sets none (log entry 16), so this holds whatever it is; nor does it say how the
grammar applies to a stream that ends inside a unit, or inside a word: the model takes it for a prefix of a grammatical
stream (log entry 17). -/
def Obligations.GrammaticalStreamKeepsFraming : Prop :=
  ∀ b : List Byte, followsGrammar false (words b) = true →
    (∀ p ∈ packets b, (packetHeader p).map Header.startMarker = some startHdr) ∧
    ∀ w, wordAt (rest b) 0 = some w → bits w 56 8 = startHdr

/-! ### Fair runs -/

/-- In a fair run a word that has arrived in full is examined: from a state in which SCAN has a step, a SCAN is performed
while it still has one, unless a RESET or the fault BufferOverflow comes first (70_reset_and_hazards.md R178 (a), the spec's
decision D30; 41_reassembly.md R80). -/
def Obligations.FairRunExaminesArrivedWord : Prop :=
  ∀ (r : Run) (n : Nat), r.Fair → (r.states n).scanEnabled = true →
    ∃ m ≥ n, (r.moves m = .scan ∧ (r.states m).scanEnabled = true) ∨ (∃ sec, r.moves m = .reset sec) ∨
      (r.states m).mode = .faulted

/-- In a fair run that stays in RUN without a RESET, and in which every second presented from some point on is later than
the window's, the window is rotated: a snapshot keyed by that window's second, of the image as it then is, is emitted
(70_reset_and_hazards.md R178 (b), the spec's decision D30; 43_accumulate_window.md R116, R117). That R178 (b) is asked of
runs that stay in RUN is the model's choice (log entry 18). -/
def Obligations.FairRunRotatesWindow : Prop :=
  ∀ (r : Run) (n : Nat), r.Fair → (∀ m ≥ n, (r.states m).mode = .run) → (∀ m ≥ n, ∀ sec, r.moves m ≠ .reset sec) →
    (∀ m ≥ n, ∀ now, r.moves m = .tick now → (r.states n).winSec < now) →
    ∃ m ≥ n, (r.states (m + 1)).snapOut = (r.states m).snapOut ++
      [{ key := (r.states n).winSec, data := (r.states m).img.dump (r.states m).cfg }]
end

