-- ==== Sys2Proof/Laws/Bytes.lean ====
section
/-! SUPPORT. Words of a byte sequence: when a word is whole, and the list of words. -/

namespace Sys2Proof

/-- A byte sequence has fewer than 8 bytes, or begins with a word. -/
theorem short_or_word (s : List Byte) :
    (s.length < 8 ∧ takeWord s = none ∧ words s = []) ∨
      ∃ w t, s.length = t.length + 8 ∧ takeWord s = some (w, t) ∧ words s = w :: words t := by
  rcases s with _ | ⟨b0, _ | ⟨b1, _ | ⟨b2, _ | ⟨b3, _ | ⟨b4, _ | ⟨b5, _ | ⟨b6, _ | ⟨b7, t⟩⟩⟩⟩⟩⟩⟩⟩ <;>
    first
    | exact .inl ⟨by simp, rfl, rfl⟩
    | exact .inr ⟨_, _, rfl, rfl, rfl⟩

/-- A word is taken exactly where 8 bytes are there. -/
theorem takeWord_eq_none_iff {s : List Byte} : takeWord s = none ↔ s.length < 8 := by
  rcases short_or_word s with ⟨hl, hn, -⟩ | ⟨w, t, hl, hs, -⟩
  · simp [hl, hn]
  · simp [hs]; omega

theorem takeWord_rest {s t : List Byte} {w : Word} (h : takeWord s = some (w, t)) : t = s.drop 8 := by
  unfold takeWord at h
  split at h
  · simp only [Option.some.injEq, Prod.mk.injEq] at h
    simp [← h.2]
  · cases h

theorem takeWord_append {s t : List Byte} {w : Word} (h : takeWord s = some (w, t)) (u : List Byte) :
    takeWord (s ++ u) = some (w, t ++ u) := by
  unfold takeWord at h
  split at h
  · simp only [Option.some.injEq, Prod.mk.injEq] at h
    simp [takeWord, ← h.1, ← h.2]
  · cases h

/-- `be64(s, i)` is defined exactly for whole words (20_memory.md R34). -/
theorem wordAt_eq_none_iff {s : List Byte} {i : Nat} : wordAt s i = none ↔ s.length < 8 * (i + 1) := by
  simp only [wordAt, Option.map_eq_none_iff, takeWord_eq_none_iff, List.length_drop]
  omega

theorem wordAt_isSome {s : List Byte} {i : Nat} (h : 8 * (i + 1) ≤ s.length) : ∃ w, wordAt s i = some w :=
  Option.ne_none_iff_exists'.1 fun hn => by have := wordAt_eq_none_iff.1 hn; omega

theorem wordAt_le {s : List Byte} {i : Nat} {w : Word} (h : wordAt s i = some w) : 8 * (i + 1) ≤ s.length := by
  by_contra hl
  rw [wordAt_eq_none_iff.2 (by omega)] at h
  cases h

/-- Appending does not change a word that is there (20_memory.md R39). -/
theorem wordAt_append {s : List Byte} {i : Nat} {w : Word} (h : wordAt s i = some w) (u : List Byte) :
    wordAt (s ++ u) i = some w := by
  have hl := wordAt_le h
  unfold wordAt at *
  obtain ⟨⟨v, t⟩, ht, rfl⟩ := Option.map_eq_some_iff.1 h
  rw [List.drop_append_of_le_length (by omega), takeWord_append ht]
  rfl

/-- Removing whole words renumbers the rest (20_memory.md R38). -/
theorem wordAt_drop (s : List Byte) (n i : Nat) : wordAt (s.drop (8 * n)) i = wordAt s (n + i) := by
  simp only [wordAt, List.drop_drop]
  congr 3; omega

theorem words_eq (s : List Byte) :
    words s = match takeWord s with
      | some (w, t) => w :: words t
      | none => [] := by
  rcases short_or_word s with ⟨-, hn, hw⟩ | ⟨w, t, -, hs, hw⟩
  · rw [hn, hw]
  · rw [hs, hw]

/-- The words of a byte sequence are its words in order. -/
theorem words_getElem? (s : List Byte) (i : Nat) : (words s)[i]? = wordAt s i := by
  induction i generalizing s with
  | zero =>
    rw [words_eq, wordAt]
    simp only [Nat.mul_zero, List.drop_zero]
    cases takeWord s with
    | none => rfl
    | some p => rfl
  | succ i ih =>
    have hd : wordAt s (i + 1) = wordAt (s.drop 8) i := by
      have := wordAt_drop s 1 i
      rw [Nat.mul_one, Nat.add_comm] at this
      exact this.symm
    rw [words_eq, hd]
    cases h : takeWord s with
    | none =>
      have := takeWord_eq_none_iff.1 h
      rw [List.drop_eq_nil_of_le (by omega)]
      exact (wordAt_eq_none_iff.2 (by simp)).symm
    | some p =>
      obtain ⟨w, t⟩ := p
      simp only [List.getElem?_cons_succ]
      rw [ih, takeWord_rest h]

theorem words_length (s : List Byte) : (words s).length = s.length / 8 := by
  have key : ∀ i, i < (words s).length ↔ i < s.length / 8 := by
    intro i
    have h1 : (words s)[i]? = none ↔ s.length < 8 * (i + 1) := by rw [words_getElem?, wordAt_eq_none_iff]
    rw [List.getElem?_eq_none_iff] at h1
    omega
  have h1 := key (words s).length
  have h2 := key (s.length / 8)
  omega

/-- A sequence of at least 8 bytes has a first word. -/
theorem words_ne_nil {s : List Byte} (h : 8 ≤ s.length) : words s ≠ [] := by
  intro hn
  have := words_length s
  rw [hn] at this
  simp only [List.length_nil] at this
  omega

end Sys2Proof
end

