-- ==== Sys2Proof/Laws/State.lean ====
section
/-! SUPPORT. One lemma per field per update of State, true by rfl. -/

namespace Sys2Proof.Machine

variable (s : State)

/-! ### flagOversize -/

@[simp] theorem State.flagOversize_mode (len : Nat) : (s.flagOversize len).mode = s.mode := rfl
@[simp] theorem State.flagOversize_buf (len : Nat) : (s.flagOversize len).buf = s.buf := rfl
@[simp] theorem State.flagOversize_si (len : Nat) : (s.flagOversize len).si = s.si := rfl
@[simp] theorem State.flagOversize_seq (len : Nat) : (s.flagOversize len).seq = s.seq := rfl
@[simp] theorem State.flagOversize_img (len : Nat) : (s.flagOversize len).img = s.img := rfl
@[simp] theorem State.flagOversize_winSec (len : Nat) : (s.flagOversize len).winSec = s.winSec := rfl
@[simp] theorem State.flagOversize_pktCount (len : Nat) : (s.flagOversize len).pktCount = s.pktCount := rfl
@[simp] theorem State.flagOversize_nSeqAnom (len : Nat) : (s.flagOversize len).nSeqAnom = s.nSeqAnom := rfl
@[simp] theorem State.flagOversize_nOversize (len : Nat) : (s.flagOversize len).nOversize = s.nOversize + 1 := rfl
@[simp] theorem State.flagOversize_pktOut (len : Nat) : (s.flagOversize len).pktOut = s.pktOut := rfl
@[simp] theorem State.flagOversize_snapOut (len : Nat) : (s.flagOversize len).snapOut = s.snapOut := rfl
@[simp] theorem State.flagOversize_renderOut (len : Nat) : (s.flagOversize len).renderOut = s.renderOut := rfl
@[simp] theorem State.flagOversize_diagOut (len : Nat) : (s.flagOversize len).diagOut = s.diagOut ++ [.oversize len] := rfl
@[simp] theorem State.flagOversize_cfg (len : Nat) : (s.flagOversize len).cfg = s.cfg := rfl
@[simp] theorem State.flagOversize_sched (len : Nat) : (s.flagOversize len).sched = s.sched := rfl

/-! ### flagSeqMismatch -/

@[simp] theorem State.flagSeqMismatch_mode (c : BitVec 8) (e o : BitVec 12) : (s.flagSeqMismatch c e o).mode = s.mode := rfl
@[simp] theorem State.flagSeqMismatch_buf (c : BitVec 8) (e o : BitVec 12) : (s.flagSeqMismatch c e o).buf = s.buf := rfl
@[simp] theorem State.flagSeqMismatch_si (c : BitVec 8) (e o : BitVec 12) : (s.flagSeqMismatch c e o).si = s.si := rfl
@[simp] theorem State.flagSeqMismatch_seq (c : BitVec 8) (e o : BitVec 12) : (s.flagSeqMismatch c e o).seq = s.seq := rfl
@[simp] theorem State.flagSeqMismatch_img (c : BitVec 8) (e o : BitVec 12) : (s.flagSeqMismatch c e o).img = s.img := rfl
@[simp] theorem State.flagSeqMismatch_winSec (c : BitVec 8) (e o : BitVec 12) : (s.flagSeqMismatch c e o).winSec = s.winSec := rfl
@[simp] theorem State.flagSeqMismatch_pktCount (c : BitVec 8) (e o : BitVec 12) : (s.flagSeqMismatch c e o).pktCount = s.pktCount := rfl
@[simp] theorem State.flagSeqMismatch_nSeqAnom (c : BitVec 8) (e o : BitVec 12) : (s.flagSeqMismatch c e o).nSeqAnom = s.nSeqAnom + 1 := rfl
@[simp] theorem State.flagSeqMismatch_nOversize (c : BitVec 8) (e o : BitVec 12) : (s.flagSeqMismatch c e o).nOversize = s.nOversize := rfl
@[simp] theorem State.flagSeqMismatch_pktOut (c : BitVec 8) (e o : BitVec 12) : (s.flagSeqMismatch c e o).pktOut = s.pktOut := rfl
@[simp] theorem State.flagSeqMismatch_snapOut (c : BitVec 8) (e o : BitVec 12) : (s.flagSeqMismatch c e o).snapOut = s.snapOut := rfl
@[simp] theorem State.flagSeqMismatch_renderOut (c : BitVec 8) (e o : BitVec 12) : (s.flagSeqMismatch c e o).renderOut = s.renderOut := rfl
@[simp] theorem State.flagSeqMismatch_diagOut (c : BitVec 8) (e o : BitVec 12) : (s.flagSeqMismatch c e o).diagOut = s.diagOut ++ [.seqMismatch c e o] := rfl
@[simp] theorem State.flagSeqMismatch_cfg (c : BitVec 8) (e o : BitVec 12) : (s.flagSeqMismatch c e o).cfg = s.cfg := rfl
@[simp] theorem State.flagSeqMismatch_sched (c : BitVec 8) (e o : BitVec 12) : (s.flagSeqMismatch c e o).sched = s.sched := rfl

/-! ### append -/

@[simp] theorem State.append_mode (c : List Byte) : (s.append c).mode = s.mode := rfl
@[simp] theorem State.append_buf (c : List Byte) : (s.append c).buf = s.buf ++ c := rfl
@[simp] theorem State.append_si (c : List Byte) : (s.append c).si = s.si := rfl
@[simp] theorem State.append_seq (c : List Byte) : (s.append c).seq = s.seq := rfl
@[simp] theorem State.append_img (c : List Byte) : (s.append c).img = s.img := rfl
@[simp] theorem State.append_winSec (c : List Byte) : (s.append c).winSec = s.winSec := rfl
@[simp] theorem State.append_pktCount (c : List Byte) : (s.append c).pktCount = s.pktCount := rfl
@[simp] theorem State.append_nSeqAnom (c : List Byte) : (s.append c).nSeqAnom = s.nSeqAnom := rfl
@[simp] theorem State.append_nOversize (c : List Byte) : (s.append c).nOversize = s.nOversize := rfl
@[simp] theorem State.append_pktOut (c : List Byte) : (s.append c).pktOut = s.pktOut := rfl
@[simp] theorem State.append_snapOut (c : List Byte) : (s.append c).snapOut = s.snapOut := rfl
@[simp] theorem State.append_renderOut (c : List Byte) : (s.append c).renderOut = s.renderOut := rfl
@[simp] theorem State.append_diagOut (c : List Byte) : (s.append c).diagOut = s.diagOut := rfl
@[simp] theorem State.append_cfg (c : List Byte) : (s.append c).cfg = s.cfg := rfl
@[simp] theorem State.append_sched (c : List Byte) : (s.append c).sched = s.sched := rfl

/-! ### consumePrefix -/

@[simp] theorem State.consumePrefix_mode (n : Nat) : (s.consumePrefix n).mode = s.mode := rfl
@[simp] theorem State.consumePrefix_buf (n : Nat) : (s.consumePrefix n).buf = slice s.buf n s.buf.length := rfl
@[simp] theorem State.consumePrefix_si (n : Nat) : (s.consumePrefix n).si = s.si := rfl
@[simp] theorem State.consumePrefix_seq (n : Nat) : (s.consumePrefix n).seq = s.seq := rfl
@[simp] theorem State.consumePrefix_img (n : Nat) : (s.consumePrefix n).img = s.img := rfl
@[simp] theorem State.consumePrefix_winSec (n : Nat) : (s.consumePrefix n).winSec = s.winSec := rfl
@[simp] theorem State.consumePrefix_pktCount (n : Nat) : (s.consumePrefix n).pktCount = s.pktCount := rfl
@[simp] theorem State.consumePrefix_nSeqAnom (n : Nat) : (s.consumePrefix n).nSeqAnom = s.nSeqAnom := rfl
@[simp] theorem State.consumePrefix_nOversize (n : Nat) : (s.consumePrefix n).nOversize = s.nOversize := rfl
@[simp] theorem State.consumePrefix_pktOut (n : Nat) : (s.consumePrefix n).pktOut = s.pktOut := rfl
@[simp] theorem State.consumePrefix_snapOut (n : Nat) : (s.consumePrefix n).snapOut = s.snapOut := rfl
@[simp] theorem State.consumePrefix_renderOut (n : Nat) : (s.consumePrefix n).renderOut = s.renderOut := rfl
@[simp] theorem State.consumePrefix_diagOut (n : Nat) : (s.consumePrefix n).diagOut = s.diagOut := rfl
@[simp] theorem State.consumePrefix_cfg (n : Nat) : (s.consumePrefix n).cfg = s.cfg := rfl
@[simp] theorem State.consumePrefix_sched (n : Nat) : (s.consumePrefix n).sched = s.sched := rfl

/-! ### setSi -/

@[simp] theorem State.setSi_mode (n : Nat) : (s.setSi n).mode = s.mode := rfl
@[simp] theorem State.setSi_buf (n : Nat) : (s.setSi n).buf = s.buf := rfl
@[simp] theorem State.setSi_si (n : Nat) : (s.setSi n).si = n := rfl
@[simp] theorem State.setSi_seq (n : Nat) : (s.setSi n).seq = s.seq := rfl
@[simp] theorem State.setSi_img (n : Nat) : (s.setSi n).img = s.img := rfl
@[simp] theorem State.setSi_winSec (n : Nat) : (s.setSi n).winSec = s.winSec := rfl
@[simp] theorem State.setSi_pktCount (n : Nat) : (s.setSi n).pktCount = s.pktCount := rfl
@[simp] theorem State.setSi_nSeqAnom (n : Nat) : (s.setSi n).nSeqAnom = s.nSeqAnom := rfl
@[simp] theorem State.setSi_nOversize (n : Nat) : (s.setSi n).nOversize = s.nOversize := rfl
@[simp] theorem State.setSi_pktOut (n : Nat) : (s.setSi n).pktOut = s.pktOut := rfl
@[simp] theorem State.setSi_snapOut (n : Nat) : (s.setSi n).snapOut = s.snapOut := rfl
@[simp] theorem State.setSi_renderOut (n : Nat) : (s.setSi n).renderOut = s.renderOut := rfl
@[simp] theorem State.setSi_diagOut (n : Nat) : (s.setSi n).diagOut = s.diagOut := rfl
@[simp] theorem State.setSi_cfg (n : Nat) : (s.setSi n).cfg = s.cfg := rfl
@[simp] theorem State.setSi_sched (n : Nat) : (s.setSi n).sched = s.sched := rfl

/-! ### raiseBufferOverflow -/

@[simp] theorem State.raiseBufferOverflow_mode : s.raiseBufferOverflow.mode = .faulted := rfl
@[simp] theorem State.raiseBufferOverflow_buf : s.raiseBufferOverflow.buf = s.buf := rfl
@[simp] theorem State.raiseBufferOverflow_si : s.raiseBufferOverflow.si = s.si := rfl
@[simp] theorem State.raiseBufferOverflow_seq : s.raiseBufferOverflow.seq = s.seq := rfl
@[simp] theorem State.raiseBufferOverflow_img : s.raiseBufferOverflow.img = s.img := rfl
@[simp] theorem State.raiseBufferOverflow_winSec : s.raiseBufferOverflow.winSec = s.winSec := rfl
@[simp] theorem State.raiseBufferOverflow_pktCount : s.raiseBufferOverflow.pktCount = s.pktCount := rfl
@[simp] theorem State.raiseBufferOverflow_nSeqAnom : s.raiseBufferOverflow.nSeqAnom = s.nSeqAnom := rfl
@[simp] theorem State.raiseBufferOverflow_nOversize : s.raiseBufferOverflow.nOversize = s.nOversize := rfl
@[simp] theorem State.raiseBufferOverflow_pktOut : s.raiseBufferOverflow.pktOut = s.pktOut := rfl
@[simp] theorem State.raiseBufferOverflow_snapOut : s.raiseBufferOverflow.snapOut = s.snapOut := rfl
@[simp] theorem State.raiseBufferOverflow_renderOut : s.raiseBufferOverflow.renderOut = s.renderOut := rfl
@[simp] theorem State.raiseBufferOverflow_diagOut : s.raiseBufferOverflow.diagOut = s.diagOut := rfl
@[simp] theorem State.raiseBufferOverflow_cfg : s.raiseBufferOverflow.cfg = s.cfg := rfl
@[simp] theorem State.raiseBufferOverflow_sched : s.raiseBufferOverflow.sched = s.sched := rfl

/-! ### emitPacket -/

@[simp] theorem State.emitPacket_mode (p : List Byte) : (s.emitPacket p).mode = s.mode := rfl
@[simp] theorem State.emitPacket_buf (p : List Byte) : (s.emitPacket p).buf = s.buf := rfl
@[simp] theorem State.emitPacket_si (p : List Byte) : (s.emitPacket p).si = s.si := rfl
@[simp] theorem State.emitPacket_seq (p : List Byte) : (s.emitPacket p).seq = s.seq := rfl
@[simp] theorem State.emitPacket_img (p : List Byte) : (s.emitPacket p).img = s.img := rfl
@[simp] theorem State.emitPacket_winSec (p : List Byte) : (s.emitPacket p).winSec = s.winSec := rfl
@[simp] theorem State.emitPacket_pktCount (p : List Byte) : (s.emitPacket p).pktCount = s.pktCount := rfl
@[simp] theorem State.emitPacket_nSeqAnom (p : List Byte) : (s.emitPacket p).nSeqAnom = s.nSeqAnom := rfl
@[simp] theorem State.emitPacket_nOversize (p : List Byte) : (s.emitPacket p).nOversize = s.nOversize := rfl
@[simp] theorem State.emitPacket_pktOut (p : List Byte) : (s.emitPacket p).pktOut = s.pktOut ++ [p] := rfl
@[simp] theorem State.emitPacket_snapOut (p : List Byte) : (s.emitPacket p).snapOut = s.snapOut := rfl
@[simp] theorem State.emitPacket_renderOut (p : List Byte) : (s.emitPacket p).renderOut = s.renderOut := rfl
@[simp] theorem State.emitPacket_diagOut (p : List Byte) : (s.emitPacket p).diagOut = s.diagOut := rfl
@[simp] theorem State.emitPacket_cfg (p : List Byte) : (s.emitPacket p).cfg = s.cfg := rfl
@[simp] theorem State.emitPacket_sched (p : List Byte) : (s.emitPacket p).sched = s.sched := rfl

/-! ### advanceSeq -/

@[simp] theorem State.advanceSeq_mode (c : BitVec 8) (o : BitVec 12) : (s.advanceSeq c o).mode = s.mode := rfl
@[simp] theorem State.advanceSeq_buf (c : BitVec 8) (o : BitVec 12) : (s.advanceSeq c o).buf = s.buf := rfl
@[simp] theorem State.advanceSeq_si (c : BitVec 8) (o : BitVec 12) : (s.advanceSeq c o).si = s.si := rfl
@[simp] theorem State.advanceSeq_seq (c : BitVec 8) (o : BitVec 12) : (s.advanceSeq c o).seq = s.seq.set c.toNat (nextExpected s.cfg.seqResync (s.expected c) o) c.isLt := rfl
@[simp] theorem State.advanceSeq_img (c : BitVec 8) (o : BitVec 12) : (s.advanceSeq c o).img = s.img := rfl
@[simp] theorem State.advanceSeq_winSec (c : BitVec 8) (o : BitVec 12) : (s.advanceSeq c o).winSec = s.winSec := rfl
@[simp] theorem State.advanceSeq_pktCount (c : BitVec 8) (o : BitVec 12) : (s.advanceSeq c o).pktCount = s.pktCount := rfl
@[simp] theorem State.advanceSeq_nSeqAnom (c : BitVec 8) (o : BitVec 12) : (s.advanceSeq c o).nSeqAnom = s.nSeqAnom := rfl
@[simp] theorem State.advanceSeq_nOversize (c : BitVec 8) (o : BitVec 12) : (s.advanceSeq c o).nOversize = s.nOversize := rfl
@[simp] theorem State.advanceSeq_pktOut (c : BitVec 8) (o : BitVec 12) : (s.advanceSeq c o).pktOut = s.pktOut := rfl
@[simp] theorem State.advanceSeq_snapOut (c : BitVec 8) (o : BitVec 12) : (s.advanceSeq c o).snapOut = s.snapOut := rfl
@[simp] theorem State.advanceSeq_renderOut (c : BitVec 8) (o : BitVec 12) : (s.advanceSeq c o).renderOut = s.renderOut := rfl
@[simp] theorem State.advanceSeq_diagOut (c : BitVec 8) (o : BitVec 12) : (s.advanceSeq c o).diagOut = s.diagOut := rfl
@[simp] theorem State.advanceSeq_cfg (c : BitVec 8) (o : BitVec 12) : (s.advanceSeq c o).cfg = s.cfg := rfl
@[simp] theorem State.advanceSeq_sched (c : BitVec 8) (o : BitVec 12) : (s.advanceSeq c o).sched = s.sched := rfl

/-! ### countPhotons -/

@[simp] theorem State.countPhotons_mode (xys : List (Nat × Nat)) : (s.countPhotons xys).mode = s.mode := rfl
@[simp] theorem State.countPhotons_buf (xys : List (Nat × Nat)) : (s.countPhotons xys).buf = s.buf := rfl
@[simp] theorem State.countPhotons_si (xys : List (Nat × Nat)) : (s.countPhotons xys).si = s.si := rfl
@[simp] theorem State.countPhotons_seq (xys : List (Nat × Nat)) : (s.countPhotons xys).seq = s.seq := rfl
@[simp] theorem State.countPhotons_img (xys : List (Nat × Nat)) : (s.countPhotons xys).img = s.img.accumulate s.cfg xys := rfl
@[simp] theorem State.countPhotons_winSec (xys : List (Nat × Nat)) : (s.countPhotons xys).winSec = s.winSec := rfl
@[simp] theorem State.countPhotons_pktCount (xys : List (Nat × Nat)) : (s.countPhotons xys).pktCount = s.pktCount := rfl
@[simp] theorem State.countPhotons_nSeqAnom (xys : List (Nat × Nat)) : (s.countPhotons xys).nSeqAnom = s.nSeqAnom := rfl
@[simp] theorem State.countPhotons_nOversize (xys : List (Nat × Nat)) : (s.countPhotons xys).nOversize = s.nOversize := rfl
@[simp] theorem State.countPhotons_pktOut (xys : List (Nat × Nat)) : (s.countPhotons xys).pktOut = s.pktOut := rfl
@[simp] theorem State.countPhotons_snapOut (xys : List (Nat × Nat)) : (s.countPhotons xys).snapOut = s.snapOut := rfl
@[simp] theorem State.countPhotons_renderOut (xys : List (Nat × Nat)) : (s.countPhotons xys).renderOut = s.renderOut := rfl
@[simp] theorem State.countPhotons_diagOut (xys : List (Nat × Nat)) : (s.countPhotons xys).diagOut = s.diagOut := rfl
@[simp] theorem State.countPhotons_cfg (xys : List (Nat × Nat)) : (s.countPhotons xys).cfg = s.cfg := rfl
@[simp] theorem State.countPhotons_sched (xys : List (Nat × Nat)) : (s.countPhotons xys).sched = s.sched := rfl

/-! ### countPacket -/

@[simp] theorem State.countPacket_mode : s.countPacket.mode = s.mode := rfl
@[simp] theorem State.countPacket_buf : s.countPacket.buf = s.buf := rfl
@[simp] theorem State.countPacket_si : s.countPacket.si = s.si := rfl
@[simp] theorem State.countPacket_seq : s.countPacket.seq = s.seq := rfl
@[simp] theorem State.countPacket_img : s.countPacket.img = s.img := rfl
@[simp] theorem State.countPacket_winSec : s.countPacket.winSec = s.winSec := rfl
@[simp] theorem State.countPacket_pktCount : s.countPacket.pktCount = s.pktCount + 1 := rfl
@[simp] theorem State.countPacket_nSeqAnom : s.countPacket.nSeqAnom = s.nSeqAnom := rfl
@[simp] theorem State.countPacket_nOversize : s.countPacket.nOversize = s.nOversize := rfl
@[simp] theorem State.countPacket_pktOut : s.countPacket.pktOut = s.pktOut := rfl
@[simp] theorem State.countPacket_snapOut : s.countPacket.snapOut = s.snapOut := rfl
@[simp] theorem State.countPacket_renderOut : s.countPacket.renderOut = s.renderOut := rfl
@[simp] theorem State.countPacket_diagOut : s.countPacket.diagOut = s.diagOut := rfl
@[simp] theorem State.countPacket_cfg : s.countPacket.cfg = s.cfg := rfl
@[simp] theorem State.countPacket_sched : s.countPacket.sched = s.sched := rfl

/-! ### rotate -/

@[simp] theorem State.rotate_mode (now : Nat) : (s.rotate now).mode = s.mode := rfl
@[simp] theorem State.rotate_buf (now : Nat) : (s.rotate now).buf = s.buf := rfl
@[simp] theorem State.rotate_si (now : Nat) : (s.rotate now).si = s.si := rfl
@[simp] theorem State.rotate_seq (now : Nat) : (s.rotate now).seq = s.seq := rfl
@[simp] theorem State.rotate_img (now : Nat) : (s.rotate now).img = [] := rfl
@[simp] theorem State.rotate_winSec (now : Nat) : (s.rotate now).winSec = now := rfl
@[simp] theorem State.rotate_pktCount (now : Nat) : (s.rotate now).pktCount = 0 := rfl
@[simp] theorem State.rotate_nSeqAnom (now : Nat) : (s.rotate now).nSeqAnom = s.nSeqAnom := rfl
@[simp] theorem State.rotate_nOversize (now : Nat) : (s.rotate now).nOversize = s.nOversize := rfl
@[simp] theorem State.rotate_pktOut (now : Nat) : (s.rotate now).pktOut = s.pktOut := rfl
@[simp] theorem State.rotate_snapOut (now : Nat) : (s.rotate now).snapOut = s.snapOut ++ [{ key := s.winSec, data := s.img.dump s.cfg }] := rfl
@[simp] theorem State.rotate_renderOut (now : Nat) : (s.rotate now).renderOut = s.renderOut ++ [s.winSec] := rfl
@[simp] theorem State.rotate_diagOut (now : Nat) : (s.rotate now).diagOut = s.diagOut ++ [.windowPackets s.winSec s.pktCount] := rfl
@[simp] theorem State.rotate_cfg (now : Nat) : (s.rotate now).cfg = s.cfg := rfl
@[simp] theorem State.rotate_sched (now : Nat) : (s.rotate now).sched = s.sched := rfl

/-! ### resetWith -/

@[simp] theorem State.resetWith_mode (cfg : Config) (n : Nat) : (State.resetWith cfg n).mode = .run := rfl
@[simp] theorem State.resetWith_buf (cfg : Config) (n : Nat) : (State.resetWith cfg n).buf = [] := rfl
@[simp] theorem State.resetWith_si (cfg : Config) (n : Nat) : (State.resetWith cfg n).si = 1 := rfl
@[simp] theorem State.resetWith_seq (cfg : Config) (n : Nat) : (State.resetWith cfg n).seq = Vector.replicate 256 0 := rfl
@[simp] theorem State.resetWith_img (cfg : Config) (n : Nat) : (State.resetWith cfg n).img = [] := rfl
@[simp] theorem State.resetWith_winSec (cfg : Config) (n : Nat) : (State.resetWith cfg n).winSec = n := rfl
@[simp] theorem State.resetWith_pktCount (cfg : Config) (n : Nat) : (State.resetWith cfg n).pktCount = 0 := rfl
@[simp] theorem State.resetWith_nSeqAnom (cfg : Config) (n : Nat) : (State.resetWith cfg n).nSeqAnom = 0 := rfl
@[simp] theorem State.resetWith_nOversize (cfg : Config) (n : Nat) : (State.resetWith cfg n).nOversize = 0 := rfl
@[simp] theorem State.resetWith_pktOut (cfg : Config) (n : Nat) : (State.resetWith cfg n).pktOut = [] := rfl
@[simp] theorem State.resetWith_snapOut (cfg : Config) (n : Nat) : (State.resetWith cfg n).snapOut = [] := rfl
@[simp] theorem State.resetWith_renderOut (cfg : Config) (n : Nat) : (State.resetWith cfg n).renderOut = [] := rfl
@[simp] theorem State.resetWith_diagOut (cfg : Config) (n : Nat) : (State.resetWith cfg n).diagOut = [] := rfl
@[simp] theorem State.resetWith_cfg (cfg : Config) (n : Nat) : (State.resetWith cfg n).cfg = cfg := rfl
@[simp] theorem State.resetWith_sched (cfg : Config) (n : Nat) : (State.resetWith cfg n).sched = [] := rfl

/-! ### restart -/

@[simp] theorem State.restart_mode (n : Nat) : (s.restart n).mode = .run := rfl
@[simp] theorem State.restart_buf (n : Nat) : (s.restart n).buf = [] := rfl
@[simp] theorem State.restart_si (n : Nat) : (s.restart n).si = 1 := rfl
@[simp] theorem State.restart_seq (n : Nat) : (s.restart n).seq = Vector.replicate 256 0 := rfl
@[simp] theorem State.restart_img (n : Nat) : (s.restart n).img = [] := rfl
@[simp] theorem State.restart_winSec (n : Nat) : (s.restart n).winSec = n := rfl
@[simp] theorem State.restart_pktCount (n : Nat) : (s.restart n).pktCount = 0 := rfl
@[simp] theorem State.restart_nSeqAnom (n : Nat) : (s.restart n).nSeqAnom = 0 := rfl
@[simp] theorem State.restart_nOversize (n : Nat) : (s.restart n).nOversize = 0 := rfl
@[simp] theorem State.restart_pktOut (n : Nat) : (s.restart n).pktOut = [] := rfl
@[simp] theorem State.restart_snapOut (n : Nat) : (s.restart n).snapOut = [] := rfl
@[simp] theorem State.restart_renderOut (n : Nat) : (s.restart n).renderOut = [] := rfl
@[simp] theorem State.restart_diagOut (n : Nat) : (s.restart n).diagOut = [] := rfl
@[simp] theorem State.restart_cfg (n : Nat) : (s.restart n).cfg = s.cfg := rfl
@[simp] theorem State.restart_sched (n : Nat) : (s.restart n).sched = s.sched := rfl

/-! ### checkOversize (a case split on what it checks) -/

@[simp] theorem State.checkOversize_mode (len : Nat) : (s.checkOversize len).mode = s.mode := by
  unfold State.checkOversize; split <;> rfl
@[simp] theorem State.checkOversize_buf (len : Nat) : (s.checkOversize len).buf = s.buf := by
  unfold State.checkOversize; split <;> rfl
@[simp] theorem State.checkOversize_si (len : Nat) : (s.checkOversize len).si = s.si := by
  unfold State.checkOversize; split <;> rfl
@[simp] theorem State.checkOversize_seq (len : Nat) : (s.checkOversize len).seq = s.seq := by
  unfold State.checkOversize; split <;> rfl
@[simp] theorem State.checkOversize_img (len : Nat) : (s.checkOversize len).img = s.img := by
  unfold State.checkOversize; split <;> rfl
@[simp] theorem State.checkOversize_winSec (len : Nat) : (s.checkOversize len).winSec = s.winSec := by
  unfold State.checkOversize; split <;> rfl
@[simp] theorem State.checkOversize_pktCount (len : Nat) : (s.checkOversize len).pktCount = s.pktCount := by
  unfold State.checkOversize; split <;> rfl
@[simp] theorem State.checkOversize_nSeqAnom (len : Nat) : (s.checkOversize len).nSeqAnom = s.nSeqAnom := by
  unfold State.checkOversize; split <;> rfl
@[simp] theorem State.checkOversize_nOversize (len : Nat) : (s.checkOversize len).nOversize = s.nOversize + (if 832 < len then 1 else 0) := by
  unfold State.checkOversize maxPktBytes; split <;> simp
@[simp] theorem State.checkOversize_pktOut (len : Nat) : (s.checkOversize len).pktOut = s.pktOut := by
  unfold State.checkOversize; split <;> rfl
@[simp] theorem State.checkOversize_snapOut (len : Nat) : (s.checkOversize len).snapOut = s.snapOut := by
  unfold State.checkOversize; split <;> rfl
@[simp] theorem State.checkOversize_renderOut (len : Nat) : (s.checkOversize len).renderOut = s.renderOut := by
  unfold State.checkOversize; split <;> rfl
@[simp] theorem State.checkOversize_diagOut (len : Nat) : (s.checkOversize len).diagOut = s.diagOut ++ (if 832 < len then [.oversize len] else []) := by
  unfold State.checkOversize maxPktBytes; split <;> simp
@[simp] theorem State.checkOversize_cfg (len : Nat) : (s.checkOversize len).cfg = s.cfg := by
  unfold State.checkOversize; split <;> rfl
@[simp] theorem State.checkOversize_sched (len : Nat) : (s.checkOversize len).sched = s.sched := by
  unfold State.checkOversize; split <;> rfl

/-! ### checkSeq (a case split on what it checks) -/

@[simp] theorem State.checkSeq_mode (c : BitVec 8) (o : BitVec 12) : (s.checkSeq c o).mode = s.mode := by
  unfold State.checkSeq; split <;> rfl
@[simp] theorem State.checkSeq_buf (c : BitVec 8) (o : BitVec 12) : (s.checkSeq c o).buf = s.buf := by
  unfold State.checkSeq; split <;> rfl
@[simp] theorem State.checkSeq_si (c : BitVec 8) (o : BitVec 12) : (s.checkSeq c o).si = s.si := by
  unfold State.checkSeq; split <;> rfl
@[simp] theorem State.checkSeq_seq (c : BitVec 8) (o : BitVec 12) : (s.checkSeq c o).seq = s.seq := by
  unfold State.checkSeq; split <;> rfl
@[simp] theorem State.checkSeq_img (c : BitVec 8) (o : BitVec 12) : (s.checkSeq c o).img = s.img := by
  unfold State.checkSeq; split <;> rfl
@[simp] theorem State.checkSeq_winSec (c : BitVec 8) (o : BitVec 12) : (s.checkSeq c o).winSec = s.winSec := by
  unfold State.checkSeq; split <;> rfl
@[simp] theorem State.checkSeq_pktCount (c : BitVec 8) (o : BitVec 12) : (s.checkSeq c o).pktCount = s.pktCount := by
  unfold State.checkSeq; split <;> rfl
@[simp] theorem State.checkSeq_nSeqAnom (c : BitVec 8) (o : BitVec 12) : (s.checkSeq c o).nSeqAnom = s.nSeqAnom + (if s.expected c = o then 0 else 1) := by
  unfold State.checkSeq; split <;> simp
@[simp] theorem State.checkSeq_nOversize (c : BitVec 8) (o : BitVec 12) : (s.checkSeq c o).nOversize = s.nOversize := by
  unfold State.checkSeq; split <;> rfl
@[simp] theorem State.checkSeq_pktOut (c : BitVec 8) (o : BitVec 12) : (s.checkSeq c o).pktOut = s.pktOut := by
  unfold State.checkSeq; split <;> rfl
@[simp] theorem State.checkSeq_snapOut (c : BitVec 8) (o : BitVec 12) : (s.checkSeq c o).snapOut = s.snapOut := by
  unfold State.checkSeq; split <;> rfl
@[simp] theorem State.checkSeq_renderOut (c : BitVec 8) (o : BitVec 12) : (s.checkSeq c o).renderOut = s.renderOut := by
  unfold State.checkSeq; split <;> rfl
@[simp] theorem State.checkSeq_diagOut (c : BitVec 8) (o : BitVec 12) : (s.checkSeq c o).diagOut = s.diagOut ++ (if s.expected c = o then [] else [.seqMismatch c (s.expected c) o]) := by
  unfold State.checkSeq; split <;> simp
@[simp] theorem State.checkSeq_cfg (c : BitVec 8) (o : BitVec 12) : (s.checkSeq c o).cfg = s.cfg := by
  unfold State.checkSeq; split <;> rfl
@[simp] theorem State.checkSeq_sched (c : BitVec 8) (o : BitVec 12) : (s.checkSeq c o).sched = s.sched := by
  unfold State.checkSeq; split <;> rfl

end Sys2Proof.Machine
end

