-- ==== Sys2Proof/Laws/Memory.lean ====
section
/-! SUPPORT. The image's storage: every operation keeps the canonical form, and reading after writing. -/

namespace Sys2Proof.Machine

@[simp] theorem Memory.read_nil (k : Nat) : Memory.read [] k = 0 := rfl

@[simp] theorem Memory.read_cons (a v : Nat) (m : Memory) (k : Nat) :
    Memory.read ((a, v) :: m) k = if a = k then v else m.read k := rfl

theorem Memory.wf_nil : Memory.wf [] := ⟨List.Pairwise.nil, fun _ h => absurd h (by simp)⟩

theorem Memory.fits_nil (size bound : Nat) : Memory.fits size bound [] := by simp

theorem State.resetWith_img_wf (cfg : Config) (n : Nat) : (State.resetWith cfg n).img.wf := Memory.wf_nil

theorem State.reset_img_wf : State.reset.img.wf := Memory.wf_nil

theorem Memory.wf_cons {p : Nat × Nat} {m : Memory} :
    Memory.wf (p :: m) ↔ ((∀ q ∈ m, p.1 < q.1) ∧ p.2 ≠ 0) ∧ m.wf := by
  simp only [Memory.wf, List.pairwise_cons, List.mem_cons, forall_eq_or_imp]
  tauto

/-- A counter below every listed index is unlisted. -/
theorem Memory.read_eq_zero {m : Memory} {k : Nat} (h : ∀ p ∈ m, k < p.1) : m.read k = 0 := by
  induction m with
  | nil => rfl
  | cons p m ih =>
    obtain ⟨a, v⟩ := p
    have ha : k < a := h (a, v) (by simp)
    rw [Memory.read_cons, if_neg (by omega), ih fun q hq => h q (by simp [hq])]

theorem Memory.mem_put {k v : Nat} {m : Memory} {p : Nat × Nat} (h : p ∈ Memory.put k v m) :
    p = (k, v) ∨ p ∈ m := by
  unfold Memory.put at h
  split at h
  · exact .inr h
  · simpa using h

/-- What a write lists is the cell written or was listed before. -/
theorem Memory.mem_write {m : Memory} {k v : Nat} {p : Nat × Nat} (h : p ∈ m.write k v) : p = (k, v) ∨ p ∈ m := by
  induction m with
  | nil => exact Memory.mem_put h
  | cons q m ih =>
    obtain ⟨a, u⟩ := q
    simp only [Memory.write] at h
    split at h
    · exact Memory.mem_put h
    · split at h
      · exact (Memory.mem_put h).imp_right (by simp +contextual)
      · rcases List.mem_cons.1 h with rfl | h
        · simp
        · exact (ih h).imp_right (by simp +contextual)

theorem Memory.wf_put {k v : Nat} {m : Memory} (hm : m.wf) (h : ∀ p ∈ m, k < p.1) : (Memory.put k v m).wf := by
  unfold Memory.put
  split
  · exact hm
  · exact Memory.wf_cons.2 ⟨⟨h, by assumption⟩, hm⟩

theorem Memory.read_put {k v j : Nat} {m : Memory} (h : ∀ p ∈ m, k < p.1) :
    (Memory.put k v m).read j = if j = k then v else m.read j := by
  unfold Memory.put
  split
  · split
    · subst_vars; exact Memory.read_eq_zero h
    · rfl
  · simp only [Memory.read_cons, eq_comm]

/-- A write keeps the canonical form. -/
theorem Memory.wf_write {m : Memory} (hm : m.wf) (k v : Nat) : (m.write k v).wf := by
  induction m with
  | nil => exact Memory.wf_put hm (by simp)
  | cons q m ih =>
    obtain ⟨a, u⟩ := q
    obtain ⟨⟨hlt, hu⟩, hm'⟩ := Memory.wf_cons.1 hm
    simp only [Memory.write]
    split
    · rename_i hka
      refine Memory.wf_put hm fun p hp => ?_
      rcases List.mem_cons.1 hp with rfl | hp
      · exact hka
      · exact hka.trans (hlt p hp)
    · split
      · subst_vars; exact Memory.wf_put hm' hlt
      · refine Memory.wf_cons.2 ⟨⟨fun p hp => ?_, hu⟩, ih hm'⟩
        rcases Memory.mem_write hp with rfl | hp
        · show a < k; omega
        · exact hlt p hp

/-- Reading after a write in canonical form: the cell written reads the value, every other cell as before. -/
theorem Memory.read_write {m : Memory} (hm : m.wf) (k v j : Nat) :
    (m.write k v).read j = if j = k then v else m.read j := by
  induction m with
  | nil => exact Memory.read_put (by simp)
  | cons q m ih =>
    obtain ⟨a, u⟩ := q
    obtain ⟨⟨hlt, _⟩, hm'⟩ := Memory.wf_cons.1 hm
    simp only [Memory.write]
    split
    · rename_i hka
      refine Memory.read_put fun p hp => ?_
      rcases List.mem_cons.1 hp with rfl | hp
      · exact hka
      · exact hka.trans (hlt p hp)
    · split
      · subst_vars
        rw [Memory.read_put hlt, Memory.read_cons]
        split
        · rfl
        · rw [if_neg (by omega)]
      · rw [Memory.read_cons, Memory.read_cons, ih hm']
        split <;> split <;> first | rfl | omega

theorem Memory.fits_write {m : Memory} {size bound k v : Nat} (hm : m.fits size bound) (hk : k < size) (hv : v < bound) :
    (m.write k v).fits size bound := by
  intro p hp
  rcases Memory.mem_write hp with rfl | hp
  · exact ⟨hk, hv⟩
  · exact hm p hp

/-- A counter of an image within its bounds is below the modulus. -/
theorem Memory.read_lt {m : Memory} {size bound : Nat} (hm : m.fits size bound) (h0 : 0 < bound) (k : Nat) :
    m.read k < bound := by
  induction m with
  | nil => exact h0
  | cons q m ih =>
    obtain ⟨a, u⟩ := q
    rw [Memory.read_cons]
    split
    · exact (hm (a, u) (by simp)).2
    · exact ih fun p hp => hm p (by simp [hp])

/-! ### The counter update -/

theorem Memory.wf_bump {m : Memory} (hm : m.wf) (modulus k : Nat) : (m.bump modulus k).wf := Memory.wf_write hm _ _

theorem Memory.fits_bump {m : Memory} {size modulus k : Nat} (hm : m.fits size modulus) (hk : k < size)
    (h0 : 0 < modulus) : (m.bump modulus k).fits size modulus :=
  Memory.fits_write hm hk (Nat.mod_lt _ h0)

theorem Memory.read_bump {m : Memory} (hm : m.wf) (modulus k j : Nat) :
    (m.bump modulus k).read j = if j = k then (m.read k + 1) % modulus else m.read j :=
  Memory.read_write hm _ _ _

theorem counterModulus_pos (cfg : Config) : 0 < counterModulus cfg := Nat.two_pow_pos _

theorem pixelIndex_lt (cfg : Config) (ph : Photon) : pixelIndex cfg (reduceCoords cfg ph) < pixelCount cfg := by
  have hx := Nat.mod_lt ph.xCoord.toNat cfg.xpix_pos
  have hy := Nat.mod_lt ph.yCoord.toNat cfg.ypix_pos
  unfold pixelIndex reduceCoords pixelCount
  split
  · nlinarith
  · nlinarith

theorem Memory.wf_accumulate (cfg : Config) {m : Memory} (hm : m.wf) (xys : List (Nat × Nat)) :
    (m.accumulate cfg xys).wf := by
  induction xys generalizing m with
  | nil => exact hm
  | cons xy xys ih => exact ih (Memory.wf_bump hm _ _)

theorem Memory.fits_accumulate (cfg : Config) {m : Memory} (hm : m.fits (pixelCount cfg) (counterModulus cfg))
    {xys : List (Nat × Nat)} (h : ∀ xy ∈ xys, pixelIndex cfg xy < pixelCount cfg) :
    (m.accumulate cfg xys).fits (pixelCount cfg) (counterModulus cfg) := by
  induction xys generalizing m with
  | nil => exact hm
  | cons xy xys ih =>
    exact ih (Memory.fits_bump hm (h xy (by simp)) (counterModulus_pos cfg)) fun q hq => h q (by simp [hq])

/-- After a packet's updates a counter has gained the number of coordinate pairs at its pixel, modulo its modulus. -/
theorem Memory.read_accumulate (cfg : Config) {m : Memory} (hm : m.wf) (xys : List (Nat × Nat)) (k : Nat) :
    (m.accumulate cfg xys).read k % counterModulus cfg =
      (m.read k + xys.countP fun xy => decide (pixelIndex cfg xy = k)) % counterModulus cfg := by
  induction xys generalizing m with
  | nil => rfl
  | cons xy xys ih =>
    show (Memory.accumulate cfg _ xys).read k % _ = _
    rw [ih (Memory.wf_bump hm _ _), Memory.read_bump hm, List.countP_cons]
    by_cases h : pixelIndex cfg xy = k
    · subst h
      simp only [if_true, decide_true]
      rw [Nat.add_mod, Nat.mod_mod, ← Nat.add_mod]
      congr 1; omega
    · rw [if_neg (Ne.symm h)]; simp [h]

/-! ### The dump -/

@[simp] theorem Memory.dump_length (cfg : Config) (m : Memory) : (m.dump cfg).length = pixelCount cfg := by
  simp [Memory.dump]

theorem Memory.getD_dump (cfg : Config) (m : Memory) {k : Nat} (h : k < pixelCount cfg) :
    (m.dump cfg).getD k 0 = m.read k := by
  simp [Memory.dump, h]

end Sys2Proof.Machine
end

