-- ==== Sys2Proof/Laws/Ops.lean ====
section
/-! SUPPORT. What each shared operation does, said once. -/

namespace Sys2Proof.Machine

/-! ### Guards -/

theorem State.when_true {s : State} {b : Bool} (h : b = true) (act : State → Host.Outcome State Fault Refusal) :
    s.when b act = act s := by simp [State.when, h]

theorem State.when_false {s : State} {b : Bool} (h : b = false) (act : State → Host.Outcome State Fault Refusal) :
    s.when b act = .next s := by simp [State.when, h]

@[simp] theorem State.running_iff (s : State) : s.running = true ↔ s.mode = .run := by simp [State.running]

@[simp] theorem State.wordArrived_iff (s : State) : s.wordArrived = true ↔ 8 * (s.si + 1) ≤ s.buf.length := by
  simp [State.wordArrived]

theorem State.scanEnabled_iff (s : State) :
    s.scanEnabled = true ↔ s.mode = .run ∧ 8 * (s.si + 1) ≤ s.buf.length := by
  simp [State.scanEnabled, State.running, State.wordArrived]

theorem State.quiescent_iff (s : State) :
    s.quiescent = true ↔ s.mode = .run ∧ s.buf.length < 8 * (s.si + 1) := by
  simp [State.quiescent, State.running, State.wordArrived]

/-- Where the word at `si` is there, SCAN's requirement on the buffer holds. -/
theorem State.scanEnabled_of_wordAt {s : State} {w : Word} (hm : s.mode = .run) (hw : wordAt s.buf s.si = some w) :
    s.scanEnabled = true :=
  s.scanEnabled_iff.2 ⟨hm, wordAt_le hw⟩

theorem State.wouldOverflow_iff (s : State) (n : Nat) :
    s.wouldOverflow n = true ↔ ∃ cap ∈ s.cfg.bufCap, cap < s.buf.length + n := by
  unfold State.wouldOverflow
  cases s.cfg.bufCap <;> simp

/-! ### Slices -/

theorem slice_zero (s : List Byte) (n : Nat) : slice s 0 n = s.take n := by simp [slice]

theorem slice_length (s : List Byte) (n : Nat) : slice s n s.length = s.drop n := by
  simp only [slice, List.take_eq_self_iff, List.length_drop, le_refl]

/-! ### Sequence state -/

theorem nextExpected_toNat (resync : Bool) (old observed : BitVec 12) :
    (nextExpected resync old observed).toNat = ((if resync then observed.toNat else old.toNat) + 1) % 4096 := by
  cases resync <;> simp [nextExpected, BitVec.toNat_add]

theorem State.expected_congr {s t : State} (h : t.seq = s.seq) (c : BitVec 8) : t.expected c = s.expected c := by
  simp [State.expected, h]

theorem State.expected_advanceSeq_self (s : State) (c : BitVec 8) (o : BitVec 12) :
    (s.advanceSeq c o).expected c = nextExpected s.cfg.seqResync (s.expected c) o := by
  simp [State.expected, Vector.get_eq_getElem]

theorem State.expected_advanceSeq_other (s : State) {c d : BitVec 8} (o : BitVec 12) (h : d ≠ c) :
    (s.advanceSeq c o).expected d = s.expected d := by
  have hn : c.toNat ≠ d.toNat := fun he => h (BitVec.eq_of_toNat_eq he.symm)
  simp [State.expected, Vector.get_eq_getElem, Vector.getElem_set_ne, hn]

@[simp] theorem State.expected_resetWith (cfg : Config) (n : Nat) (c : BitVec 8) :
    (State.resetWith cfg n).expected c = 0 := by
  simp [State.expected, Vector.get_eq_getElem]

/-! ### Record: one lemma per field -/

section record
variable (s : State) (h : Header) (xys : List (Nat × Nat))

@[simp] theorem State.record_mode : (s.record h xys).mode = s.mode := by simp [State.record]
@[simp] theorem State.record_buf : (s.record h xys).buf = s.buf := by simp [State.record]
@[simp] theorem State.record_si : (s.record h xys).si = s.si := by simp [State.record]
@[simp] theorem State.record_img : (s.record h xys).img = s.img.accumulate s.cfg xys := by simp [State.record]
@[simp] theorem State.record_winSec : (s.record h xys).winSec = s.winSec := by simp [State.record]
@[simp] theorem State.record_pktCount : (s.record h xys).pktCount = s.pktCount + 1 := by simp [State.record]
@[simp] theorem State.record_nSeqAnom : (s.record h xys).nSeqAnom =
    s.nSeqAnom + (if s.expected h.channelId = h.frameNumber then 0 else 1) := by simp [State.record]
@[simp] theorem State.record_nOversize : (s.record h xys).nOversize = s.nOversize := by simp [State.record]
@[simp] theorem State.record_pktOut : (s.record h xys).pktOut = s.pktOut := by simp [State.record]
@[simp] theorem State.record_snapOut : (s.record h xys).snapOut = s.snapOut := by simp [State.record]
@[simp] theorem State.record_renderOut : (s.record h xys).renderOut = s.renderOut := by simp [State.record]
@[simp] theorem State.record_diagOut : (s.record h xys).diagOut = s.diagOut ++
    (if s.expected h.channelId = h.frameNumber then []
     else [.seqMismatch h.channelId (s.expected h.channelId) h.frameNumber]) := by simp [State.record]
@[simp] theorem State.record_cfg : (s.record h xys).cfg = s.cfg := by simp [State.record]
@[simp] theorem State.record_sched : (s.record h xys).sched = s.sched := by simp [State.record]

theorem State.record_expected_self : (s.record h xys).expected h.channelId =
    nextExpected s.cfg.seqResync (s.expected h.channelId) h.frameNumber := by
  have he : (s.checkSeq h.channelId h.frameNumber).expected h.channelId = s.expected h.channelId :=
    State.expected_congr (by simp) _
  have hr : (s.record h xys).expected h.channelId =
      ((s.checkSeq h.channelId h.frameNumber).advanceSeq h.channelId h.frameNumber).expected h.channelId :=
    State.expected_congr (by simp [State.record]) _
  rw [hr, State.expected_advanceSeq_self, he, State.checkSeq_cfg]

theorem State.record_expected_other {c : BitVec 8} (hc : c ≠ h.channelId) :
    (s.record h xys).expected c = s.expected c := by
  have he : (s.checkSeq h.channelId h.frameNumber).expected c = s.expected c := State.expected_congr (by simp) _
  have hr : (s.record h xys).expected c =
      ((s.checkSeq h.channelId h.frameNumber).advanceSeq h.channelId h.frameNumber).expected c :=
    State.expected_congr (by simp [State.record]) _
  rw [hr, State.expected_advanceSeq_other _ _ hc, he]

end record

/-! ### Deliver -/

theorem decodePacket_eq (cfg : Config) {p : List Byte} {w : Word} {ws : List Word} (h : words p = w :: ws) :
    decodePacket cfg p = some (decodeHeader w, ws.map fun v => reduceCoords cfg (decodePhoton v)) := by
  simp [decodePacket, h]

/-- The state DELIVER leaves for a packet whose words are `w :: ws`. -/
theorem State.deliver_eq (s : State) {p : List Byte} {w : Word} {ws : List Word} (h : words p = w :: ws) :
    s.deliver p = .next (((s.emitPacket p).checkOversize p.length).record (decodeHeader w)
      (ws.map fun v => reduceCoords s.cfg (decodePhoton v))) := by
  simp [State.deliver, decodePacket_eq s.cfg h]

/-- DELIVER stops exactly where the packet has no word 0. -/
theorem State.deliver_fault (s : State) {p : List Byte} (h : words p = []) :
    s.deliver p = .fault .wordNotWhole := by
  simp [State.deliver, decodePacket, h]

theorem State.deliver_cases (s : State) (p : List Byte) :
    (words p = [] ∧ s.deliver p = .fault .wordNotWhole) ∨
      ∃ w ws, words p = w :: ws ∧ s.deliver p = .next (((s.emitPacket p).checkOversize p.length).record (decodeHeader w)
        (ws.map fun v => reduceCoords s.cfg (decodePhoton v))) := by
  cases h : words p with
  | nil => exact .inl ⟨rfl, s.deliver_fault h⟩
  | cons w ws => exact .inr ⟨w, ws, rfl, s.deliver_eq h⟩

theorem accumulate_inv {s : State} (hi : ImageInv s) (ws : List Word) :
    (s.img.accumulate s.cfg (ws.map fun v => reduceCoords s.cfg (decodePhoton v))).wf ∧
    (s.img.accumulate s.cfg (ws.map fun v => reduceCoords s.cfg (decodePhoton v))).fits
      (pixelCount s.cfg) (counterModulus s.cfg) := by
  refine ⟨Memory.wf_accumulate _ hi.1 _, Memory.fits_accumulate _ hi.2 ?_⟩
  intro xy hxy
  obtain ⟨v, -, rfl⟩ := List.mem_map.1 hxy
  exact pixelIndex_lt _ _

/-- Everything DELIVER does, in the terms of the rules, on an image that meets its invariant. -/
theorem State.deliver_delivered {s : State} (hi : ImageInv s) {p : List Byte} {w : Word} {ws : List Word}
    (h : words p = w :: ws) :
    ∃ t, s.deliver p = .next t ∧ Delivered p (decodeHeader w) ws s t ∧ t.buf = s.buf ∧ t.si = s.si ∧ ImageInv t := by
  have he : ∀ c, ((s.emitPacket p).checkOversize p.length).expected c = s.expected c :=
    fun c => State.expected_congr (by simp) c
  have hacc := accumulate_inv hi ws
  refine ⟨_, s.deliver_eq h, ?_, by simp, by simp, by simpa [ImageInv] using hacc⟩
  constructor <;> try simp [he]
  · rw [State.record_expected_self, nextExpected_toNat, he]; simp
  · intro c hc; rw [State.record_expected_other _ _ _ hc, he]
  · intro k
    have hr := Memory.read_accumulate s.cfg hi.1 (ws.map fun v => reduceCoords s.cfg (decodePhoton v)) k
    rw [Nat.mod_eq_of_lt (Memory.read_lt hacc.2 (counterModulus_pos _) k), List.countP_map] at hr
    exact hr

/-! ### DELIVER does not read the buffer -/

theorem State.checkOversize_withBuf (s : State) (b : List Byte) (n : Nat) :
    State.checkOversize { s with buf := b } n = { s.checkOversize n with buf := b } := by
  unfold State.checkOversize; split <;> rfl

theorem State.checkSeq_withBuf (s : State) (b : List Byte) (c : BitVec 8) (o : BitVec 12) :
    State.checkSeq { s with buf := b } c o = { s.checkSeq c o with buf := b } := by
  change (if s.expected c = o then _ else _) = { (if s.expected c = o then _ else _ : State) with buf := b }
  split <;> rfl

theorem State.record_withBuf (s : State) (b : List Byte) (h : Header) (xys : List (Nat × Nat)) :
    State.record { s with buf := b } h xys = { s.record h xys with buf := b } := by
  simp only [State.record, State.checkSeq_withBuf]; rfl

/-- DELIVER acts on the packet it is given, so it commutes with any change of the buffer. -/
theorem State.deliver_withBuf (s : State) (b p : List Byte) :
    State.deliver { s with buf := b } p =
      match s.deliver p with
      | .next t => .next { t with buf := b }
      | .fault f => .fault f
      | .refused r => .refused r := by
  rcases s.deliver_cases p with ⟨h, hf⟩ | ⟨w, ws, h, hn⟩
  · rw [hf, State.deliver_fault _ h]
  · rw [hn, State.deliver_eq _ h]
    simp only [← State.record_withBuf, ← State.checkOversize_withBuf, State.emitPacket]

/-! ### Cut and examine -/

theorem State.cut_eq (s : State) (n : Nat) :
    s.cut n = State.deliver { s with buf := s.buf.drop n, si := 1 } (s.buf.take (8 * s.si)) := by
  simp only [State.cut, slice_zero, State.setSi, State.consumePrefix, slice_length]

theorem State.examine_eq {s : State} {w : Word} (h : wordAt s.buf s.si = some w) :
    s.examine = match classify w with
      | .photon => s.advance
      | .hdr => s.normalBoundary
      | .term => s.terminatorBoundary := by
  cases hc : classify w <;> simp [State.examine, h, hc]

/-- The packet in front of a whole word at `si ≥ 1` has its own word 0. -/
theorem cut_words {s : State} {w : Word} (h : wordAt s.buf s.si = some w) (h1 : 1 ≤ s.si) :
    ∃ w0 ws, words (s.buf.take (8 * s.si)) = w0 :: ws :=
  List.exists_cons_of_ne_nil (words_ne_nil (by have := wordAt_le h; rw [List.length_take]; omega))

/-- Everything SCAN can leave when it has met a whole word: the advance, or a cut of 8*si bytes or of 8*si + 8 with the
packet in front of `si` delivered. -/
theorem State.examine_cases {s t : State} (h : s.examine = .next t) :
    t = { s with si := s.si + 1 } ∨
      ∃ n w ws, (n = 8 * s.si ∨ n = 8 * s.si + 8) ∧ words (s.buf.take (8 * s.si)) = w :: ws ∧
        t = ((({ s with buf := s.buf.drop n, si := 1 } : State).emitPacket (s.buf.take (8 * s.si))).checkOversize
          (s.buf.take (8 * s.si)).length).record (decodeHeader w)
          (ws.map fun v => reduceCoords s.cfg (decodePhoton v)) := by
  have cut : ∀ n, s.cut n = .next t → ∃ w ws, words (s.buf.take (8 * s.si)) = w :: ws ∧
      t = ((({ s with buf := s.buf.drop n, si := 1 } : State).emitPacket (s.buf.take (8 * s.si))).checkOversize
        (s.buf.take (8 * s.si)).length).record (decodeHeader w)
        (ws.map fun v => reduceCoords s.cfg (decodePhoton v)) := by
    intro n h
    rw [State.cut_eq] at h
    rcases State.deliver_cases { s with buf := s.buf.drop n, si := 1 } (s.buf.take (8 * s.si)) with
      ⟨-, hf⟩ | ⟨w, ws, hw, hn⟩
    · rw [hf] at h; cases h
    · exact ⟨w, ws, hw, Host.Outcome.next.inj (h.symm.trans hn)⟩
  unfold State.examine at h
  split at h
  · cases h
  · split at h
    · exact .inl (Host.Outcome.next.inj h).symm
    · exact .inr ⟨_, let ⟨w, ws, hw⟩ := cut _ h; ⟨w, ws, .inl rfl, hw⟩⟩
    · exact .inr ⟨_, let ⟨w, ws, hw⟩ := cut _ h; ⟨w, ws, .inr rfl, hw⟩⟩

/-! ### Fetch -/

theorem State.fetch_nil {s : State} (h : s.sched = []) : s.fetch = (.scan, s) := by simp [State.fetch, h]

theorem State.fetch_cons {s : State} {m : Move} {ms : List Move} (h : s.sched = m :: ms) :
    s.fetch = (m.toInstr, { s with sched := ms }) := by simp [State.fetch, h]

end Sys2Proof.Machine
end

