-- ==== Sys2Proof/Laws/PerInstr.lean ====
section
/-! SUPPORT. A statement about every instruction as syntax: which have a word and which are operations. -/

namespace Sys2Proof.Laws

/-- An instruction has a word exactly where it has a position to be decoded at (30_encoding.md R55, R64). -/
def HasWord.Statement (i : Instr) : Prop := (encode i).isSome = i.position.isSome

theorem HasWord.hdr0 (sm ch : BitVec 8) (fr : BitVec 12) (ts : BitVec 36) : HasWord.Statement (.hdr0 sm ch fr ts) := rfl
theorem HasWord.hdr (ch : BitVec 8) (fr : BitVec 12) (ts : BitVec 36) : HasWord.Statement (.hdr ch fr ts) := rfl
theorem HasWord.term (r : BitVec 48) : HasWord.Statement (.term r) := rfl
theorem HasWord.photon (x y : BitVec 10) (lt : BitVec 9) (wv : BitVec 18) (bl : BitVec 17) :
    HasWord.Statement (.photon x y lt wv bl) := rfl
theorem HasWord.reset (n : Nat) : HasWord.Statement (.reset n) := rfl
theorem HasWord.push (c : List Byte) : HasWord.Statement (.push c) := rfl
theorem HasWord.scan : HasWord.Statement .scan := rfl
theorem HasWord.tick (n : Nat) : HasWord.Statement (.tick n) := rfl
theorem HasWord.stop : HasWord.Statement .stop := rfl

end Sys2Proof.Laws
end

