-- ==== Sys2Proof/Tests/Slice0.lean ====
section
/-! SUPPORT. Tests of the model, expected values from spec/95_test_vectors.md or by hand from the rules, and for every
statement with hypotheses a witness that meets them. -/

namespace Sys2Proof.Tests

open Sys2Proof Sys2Proof.Machine

/-! ### Small states -/

/-- CFG-E of 95_test_vectors.md: 2 by 3 pixels of 12 bits. -/
def cfgE : Config := { xpix := 2, ypix := 3, cntW := 12 }

/-- 2 by 3 pixels of 2 bits, a buffer of 32 bytes, resynchronising, y as the slow index. -/
def cfgSmall : Config := { xpix := 2, ypix := 3, cntW := 2, imgOrder := .yMajor, seqResync := true, bufCap := some 32 }

/-- The reset state of CFG-E with these words in the buffer and this scan index. -/
def loaded (ws : List Word) (si : Nat) : State :=
  { State.resetWith cfgE 1000 with buf := ws.flatMap wordBytes, si := si }

/-- One reading of the next state, if there is one. -/
def after {α : Type} (o : Host.Outcome State Fault Refusal) (f : State → α) : Option α :=
  match o with
  | .next s => some (f s)
  | .fault _ => none
  | .refused _ => none

/-- HDR(4,0,0), PH(1,1), TERM, HDR(4,1,0): V-SCAN-5. -/
def vscan5 : List Word := [0xFF04000000000000, 0x0040100000000000, 0x7FFF000000000000, 0xFF04001000000000]

/-- HDR(3,10,0), PH(5,7,1,2,3), PH(6,8), HDR(3,11,0): E1. -/
def e1 : List Word := [0xFF0300A000000000, 0x0140700800040003, 0x0180800000000000, 0xFF0300B000000000]

/-! ### Well-formedness: an ill-formed term for each check -/

theorem test_wf_refuses_header_alias : (Instr.photon 1020 0 0 0 0).wf = false := by decide
theorem test_wf_refuses_terminator_alias : (Instr.photon 511 1008 0 0 0).wf = false := by decide
theorem test_wf_accepts_neighbours :
    (Instr.photon 511 1007 0 0 0).wf = true ∧ (Instr.photon 1019 1023 0 0 0).wf = true := by decide

/-! ### Decoding: words written out from 30_encoding.md section 7 and 95_test_vectors.md 2.1 -/

/-- V-ENC-1. -/
theorem test_decode_hdr0 :
    decode .first [0xFF, 0x03, 0x00, 0xA1, 0x23, 0x45, 0x67, 0x89] = .ok (.hdr0 0xFF 3 10 0x123456789, []) := by
  decide
/-- V-DEC-6: a terminator word at word 0 is a header. -/
theorem test_decode_hdr0_any_bits :
    decode .first [0x7F, 0xFF, 0, 0, 0, 0, 0, 0] = .ok (.hdr0 0x7F 255 0 0, []) := by decide
/-- HDR(3,50,0). -/
theorem test_decode_hdr : decode .later [0xFF, 0x03, 0x03, 0x20, 0, 0, 0, 0, 1] = .ok (.hdr 3 50 0, [1]) := by decide
/-- V-ENC-9. -/
theorem test_decode_term : decode .later [0x7F, 0xFF, 0, 0, 0, 0xAB, 0xCD, 0xEF] = .ok (.term 0xABCDEF, []) := by decide
/-- V-ENC-4. -/
theorem test_decode_photon :
    decode .later [0x02, 0x81, 0x40, 0x18, 0x07, 0xD0, 0x01, 0xF4] = .ok (.photon 10 20 3 1000 500, []) := by decide
/-- 20_memory.md R34. -/
theorem test_decode_partial_word : decode .later [0xFF, 0x03, 0x00] = .error .partialWord := by rfl
/-- V-ENC-6, V-ENC-10 to V-ENC-13. -/
theorem test_classify_neighbours :
    classify 0xFEFFFFFFFFFFFFFF = .photon ∧ classify 0x7FFEF00000000000 = .photon ∧
    classify 0x7F7F000000000000 = .photon ∧ classify 0x7EFF000000000000 = .photon ∧
    classify 0xFFFF000000000000 = .hdr ∧ classify 0x7FFFFFFFFFFFFFFF = .term := by decide
/-- The worked encodings of 30_encoding.md section 7. -/
theorem test_encode_words :
    encode (.hdr0 0x7F 255 0 0) = some 0x7FFF000000000000 ∧ encode (.hdr 3 10 0x123456789) = some 0xFF0300A123456789 ∧
    encode (.term 0xABCDEF) = some 0x7FFF000000ABCDEF ∧ encode (.photon 5 7 1 2 3) = some 0x0140700800040003 := by
  decide
/-- A row's table bits. -/
theorem test_table_word : decodeTableWord 64 0xFF0300A000000000 = some (.hdr 3 10 0) ∧ decodeTableWord 0 0 = none := by
  decide

/-! ### One step each -/

/-- V-PUSH-2. -/
theorem test_push_appends :
    after (exec (.push [0x40, 0x70, 0x08]) { loaded [] 1 with buf := [0xFF, 3, 0, 0xA0, 0, 0, 0, 0, 1] })
      (fun s => (s.buf, s.si)) = some ([0xFF, 3, 0, 0xA0, 0, 0, 0, 0, 1, 0x40, 0x70, 0x08], 1) := by decide
/-- V-PUSH-6. -/
theorem test_push_overflow :
    after (exec (.push (List.replicate 9 0)) { State.resetWith cfgSmall 0 with buf := List.replicate 24 7 })
      (fun s => (s.mode, s.buf)) = some (.faulted, List.replicate 24 7) := by decide
/-- V-SCAN-4 with CFG-E: (5,7) and (6,8) reduce to (1,1) and (0,2), indexes 4 and 2; frame 10 against 0. -/
theorem test_scan_normal_boundary :
    after (exec .scan (loaded e1 3)) (fun s => (s.buf, s.si, s.img, s.diagOut)) =
      some ([0xFF, 3, 0, 0xB0, 0, 0, 0, 0], 1, [(2, 1), (4, 1)], [.seqMismatch 3 0 10]) := by decide
/-- V-SCAN-5: the packet is the 16 bytes before the marker. -/
theorem test_scan_terminator :
    after (exec .scan (loaded vscan5 2)) (fun s => (s.buf, s.pktOut, s.expected 4, s.img)) =
      some ([0xFF, 4, 0, 0x10, 0, 0, 0, 0],
        [[0xFF, 4, 0, 0, 0, 0, 0, 0, 0x00, 0x40, 0x10, 0, 0, 0, 0, 0]], 1, [(4, 1)]) := by decide
/-- V-SCAN-8, first step: a second marker becomes word 0. -/
theorem test_term_keeps_next_word :
    after (exec (.term 0) (loaded [0xFF04000000000000, 0x7FFF000000000000, 0x7FFF000000000000] 1))
      (fun s => (s.buf, s.pktCount)) = some ([0x7F, 0xFF, 0, 0, 0, 0, 0, 0], 1) := by decide
/-- V-SCAN-7: a header-only packet. -/
theorem test_hdr_header_only :
    after (exec (.hdr 3 11 0) (loaded [0xFF0300A000000000, 0xFF0300B000000000] 1))
      (fun s => (s.expected 3, s.pktCount, s.img, s.nSeqAnom)) = some (1, 1, [], 1) := by decide
/-- V-SCAN-2. -/
theorem test_photon_advances :
    after (exec (.photon 5 7 1 2 3) (loaded e1 1)) (fun s => (s.si, s.buf.length)) = some (2, 32) := by decide
/-- V-ACC-4: 4095 and then 0. -/
theorem test_hdr0_expected_wraps :
    after (exec (.hdr0 0xFF 5 4095 0) { loaded [] 1 with seq := (Vector.replicate 256 0).set 5 4095 })
      (fun s => (s.expected 5, s.nSeqAnom)) = some (0, 0) := by decide
/-- V-ACC-5, CFG-C: the resynchronising alternative. -/
theorem test_hdr0_resync :
    after (exec (.hdr0 0xFF 3 50 0) { State.resetWith cfgSmall 0 with seq := (Vector.replicate 256 0).set 3 11 })
      (fun s => (s.expected 3, s.diagOut)) = some (51, [.seqMismatch 3 11 50]) := by decide
/-- V-ACC-3b with 2-bit counters: 3 wraps to 0, which is unlisted. -/
theorem test_counter_wraps : Memory.accumulate cfgSmall [(0, 3), (4, 1)] [(0, 0)] = [(4, 1)] := by decide
/-- V-TICK-4 with CFG-E: one snapshot for a jump of three seconds. -/
theorem test_tick_jump :
    after (exec (.tick 1003) { loaded [] 1 with img := [(2, 1), (4, 2)], pktCount := 3 })
      (fun s => (s.snapOut, s.img, s.winSec)) = some ([⟨1000, [0, 0, 1, 0, 2, 0]⟩], [], 1003) := by decide
/-- V-TICK-2. -/
theorem test_tick_earlier_second : after (exec (.tick 999) (loaded [] 1)) (fun s => (s.snapOut, s.winSec)) = some ([], 1000) := by
  decide
/-- V-CTL-2: not quiescent. -/
theorem test_stop_waits_for_drain : after (exec .stop (loaded e1 1)) (fun s => s.mode) = some .run := by decide
/-- V-CTL-4: the carry-over and the counts stay. -/
theorem test_stop_keeps_counts :
    after (exec .stop { loaded (e1.take 3) 3 with img := [(4, 9)] }) (fun s => (s.mode, s.buf.length, s.img)) =
      some (.stopped, 24, [(4, 9)]) := by decide
/-- V-CTL-5: RESET is the way back. -/
theorem test_reset_from_stopped :
    after (exec (.reset 5) { loaded e1 3 with mode := .stopped, img := [(4, 9)], sched := [.scan] })
      (fun s => (s.mode, s.buf, s.img, s.winSec)) = some (.run, [], [], 5) := by decide
/-- E8. -/
theorem test_serialise :
    serialise cfgE [0, 0, 0, 0, 300, 0] = [0, 0, 0, 0, 0, 0, 0, 0, 0x2C, 1, 0, 0] ∧
    deserialise cfgE [0, 0, 0, 0, 0, 0, 0, 0, 0x2C, 1, 0, 0] = [0, 0, 0, 0, 300, 0] := by decide
/-- V-SCAN-8: the packets of the stream as a whole. -/
theorem test_packets_of_stream :
    packets ([0xFF04000000000000, 0x7FFF000000000000, 0x7FFF000000000000, 0xFF04001000000000].flatMap wordBytes) =
      [[0xFF, 4, 0, 0, 0, 0, 0, 0], [0x7F, 0xFF, 0, 0, 0, 0, 0, 0]] := by decide
/-- A scheduled move goes before PRE's own, and a placed word is what the next step examines. -/
theorem test_step_order :
    after (step { loaded e1 1 with sched := [.tick 1001] }) (fun s => (s.si, s.winSec, s.sched)) = some (1, 1001, []) ∧
    after (step ((loaded [] 1).withFetchWord 64 0x0140700800040003)) (fun s => s.si) = some 2 := by decide

/-! ### Witnesses: the hypotheses of each statement are met -/

theorem witness_DecodeOfEncodeIsSame :
    (Instr.photon 511 1007 511 262143 131071).wf = true ∧ (Instr.photon 511 1007 511 262143 131071).position = some .later ∧
    encode (.photon 511 1007 511 262143 131071) = some 0x7FFEFFFFFFFFFFFF := by decide
theorem witness_DecodeReadsWordBytes : ([1, 2, 3, 4, 5, 6, 7] : List Byte).length < 8 := by decide
theorem witness_WordsAreBigEndian : wordAt (e1.flatMap wordBytes) 3 = some 0xFF0300B000000000 := by decide
theorem witness_ReducedCoordinatesIndexImage :
    1024 ≤ ({ xpix := 1024, ypix := 2048, cntW := 16 } : Config).xpix ∧
    1024 ≤ ({ xpix := 1024, ypix := 2048, cntW := 16 } : Config).ypix := by decide
theorem witness_PixelIndexIsBijection :
    1 < cfgSmall.xpix ∧ 2 < cfgSmall.ypix ∧ pixelIndex cfgSmall (1, 2) = 5 ∧ 5 < cfgSmall.xpix * cfgSmall.ypix ∧
    pixelIndex cfgE (1, 2) = 5 ∧ pixelIndex cfgSmall (1, 2) = pixelIndex cfgSmall (1, 2) := by decide
theorem witness_PacketDecodesWordByWord :
    (e1.flatMap wordBytes).length % 8 = 0 ∧ 8 ≤ (e1.flatMap wordBytes).length ∧
    2 + 1 < (e1.flatMap wordBytes).length / 8 := by decide
theorem witness_SnapshotBytesRoundTrip :
    [0, 0, 1, 1, 2, 4095].length = pixelCount cfgE ∧ (∀ v ∈ [0, 0, 1, 1, 2, 4095], v < counterModulus cfgE) ∧
    5 < cfgE.xpix * cfgE.ypix ∧ 1 < (cfgE.cntW + 7) / 8 := by decide
theorem witness_IllegalConfigurationRefused :
    ((2 : Nat) = 0 ∨ (0 : Nat) = 0 ∨ (1 : Nat) = 0) ∧ (0 : Nat) < 2048 ∧ (0 : Nat) < 1 ∧ (0 : Nat) < 16 := by decide
/-- V-PUSH-5: exactly full is no overflow. -/
theorem witness_PushAppendsChunk :
    { State.resetWith cfgSmall 0 with buf := List.replicate 24 7 }.mode = .run ∧
    ∀ cap ∈ { State.resetWith cfgSmall 0 with buf := List.replicate 24 7 }.cfg.bufCap,
      (List.replicate 24 (7 : Byte)).length + (List.replicate 8 (0 : Byte)).length ≤ cap := by decide
theorem witness_PushOverflowFaults :
    (State.resetWith cfgSmall 0).mode = .run ∧ (State.resetWith cfgSmall 0).cfg.bufCap = some 32 ∧
    32 < (State.resetWith cfgSmall 0).buf.length + (List.replicate 33 (0 : Byte)).length ∧
    { loaded e1 1 with mode := .faulted }.mode = .faulted ∧ (∀ n, Instr.push [] ≠ .reset n) ∧
    (loaded e1 1).cfg.bufCap = none ∧ (∃ t, exec (.push [1]) (loaded e1 1) = .next t) ∧
    ∃ t, exec (.push []) { loaded e1 1 with mode := .faulted } = .next t :=
  ⟨by decide, by decide, by decide, by decide, by simp, by decide, ⟨_, rfl⟩, _, rfl⟩
theorem witness_PushEmptyChangesNothing :
    (State.resetWith cfgSmall 0).mode = .run ∧ CapacityInv { State.resetWith cfgSmall 0 with buf := List.replicate 32 7 } := by decide
theorem witness_PushKeepsEarlierBytes :
    (∃ t, exec (.push [1]) (loaded e1 1) = .next t) ∧ 31 < (loaded e1 1).buf.length ∧
    wordAt (loaded e1 1).buf 3 = some 0xFF0300B000000000 := ⟨⟨_, rfl⟩, by decide⟩
theorem witness_ScanPhotonAdvances :
    (loaded e1 2).mode = .run ∧ wordAt (loaded e1 2).buf (loaded e1 2).si = some 0x0180800000000000 ∧
    classify 0x0180800000000000 = .photon := by decide
theorem witness_ScanHeaderIsNormalBoundary :
    (loaded e1 3).mode = .run ∧ 1 ≤ (loaded e1 3).si ∧ ImageInv (loaded e1 3) ∧
    wordAt (loaded e1 3).buf (loaded e1 3).si = some 0xFF0300B000000000 ∧ classify 0xFF0300B000000000 = .hdr := by decide
theorem witness_ScanTerminatorIsBoundary :
    (loaded vscan5 2).mode = .run ∧ 1 ≤ (loaded vscan5 2).si ∧ ImageInv (loaded vscan5 2) ∧
    wordAt (loaded vscan5 2).buf (loaded vscan5 2).si = some 0x7FFF000000000000 ∧
    classify 0x7FFF000000000000 = .term := by decide
theorem witness_WordRowsAreScanOutcomes :
    (loaded e1 3).mode = .run ∧ 1 ≤ (loaded e1 3).si ∧ ImageInv (loaded e1 3) ∧
    8 * ((loaded e1 3).si + 1) ≤ (loaded e1 3).buf.length := by decide
theorem witness_ScanRunsDecodedWord : wordAt (loaded e1 1).buf (loaded e1 1).si = some 0x0140700800040003 := by decide
/-- V-SCAN-1: 15 bytes. -/
theorem witness_ScanWaitsForWholeWord :
    { loaded [] 1 with buf := List.replicate 15 0 }.buf.length < 8 * ({ loaded [] 1 with buf := List.replicate 15 0 }.si + 1) := by
  decide
theorem witness_HeaderOnlyPacketDelivered :
    (loaded [0xFF0300A000000000, 0xFF0300B000000000] 1).mode = .run ∧
    (loaded [0xFF0300A000000000, 0xFF0300B000000000] 1).si = 1 ∧
    wordAt (loaded [0xFF0300A000000000, 0xFF0300B000000000] 1).buf 0 = some 0xFF0300A000000000 ∧
    wordAt (loaded [0xFF0300A000000000, 0xFF0300B000000000] 1).buf 1 = some 0xFF0300B000000000 ∧
    classify 0xFF0300B000000000 ≠ .photon := by decide
/-- V-SCAN-9 and V-SCAN-10 in little: `si` words of zeros and a terminator after them. -/
def zerosThenTerm (si : Nat) : State :=
  { loaded [] si with buf := List.replicate (8 * si) 0 ++ wordBytes 0x7FFF000000000000 }

/-- 832 bytes and 840 bytes. -/
theorem witness_OversizeFlaggedIffLonger :
    ∀ si ∈ [104, 105], (zerosThenTerm si).mode = .run ∧ 1 ≤ (zerosThenTerm si).si ∧ ImageInv (zerosThenTerm si) ∧
      wordAt (zerosThenTerm si).buf (zerosThenTerm si).si = some 0x7FFF000000000000 ∧
      classify 0x7FFF000000000000 ≠ .photon ∧ wordAt (zerosThenTerm si).buf 0 = some 0 ∧
      (832 < 8 * (zerosThenTerm si).si ↔ si = 105) := by
  decide +kernel
theorem witness_BoundaryChecksSequence :
    (loaded e1 3).mode = .run ∧ 1 ≤ (loaded e1 3).si ∧ ImageInv (loaded e1 3) ∧ (loaded e1 3).cfg.seqResync = false ∧
    wordAt (loaded e1 3).buf (loaded e1 3).si = some 0xFF0300B000000000 ∧ classify 0xFF0300B000000000 ≠ .photon ∧
    wordAt (loaded e1 3).buf 0 = some 0xFF0300A000000000 := by decide
theorem witness_HeaderWordIsRecorded :
    (loaded [] 1).mode = .run ∧ (loaded [] 1).expected 3 = 0 ∧ (loaded [] 1).expected 3 ≠ 10 ∧
    (loaded [] 1).cfg.seqResync = false ∧ (State.resetWith cfgSmall 0).mode = .run ∧
    (State.resetWith cfgSmall 0).cfg.seqResync = true ∧ (4 : BitVec 8) ≠ 3 := by decide
/-- A counter at its largest value, and one below it. -/
theorem witness_CounterWrapsAtItsWidth :
    Memory.wf [(0, 3), (4, 2)] ∧ 0 < pixelCount cfgSmall ∧ 4 < pixelCount cfgSmall ∧
    Memory.fits (pixelCount cfgSmall) (counterModulus cfgSmall) [(0, 3), (4, 2)] ∧
    Memory.read [(0, 3), (4, 2)] 0 = 2 ^ cfgSmall.cntW - 1 ∧ Memory.read [(0, 3), (4, 2)] 4 ≠ 2 ^ cfgSmall.cntW - 1 := by
  decide

/-- V-SCAN-5 with other bits in every opaque field. -/
def vscan5Opaque : List Word := [0x0104000FFFFFFFFF, 0x00401FFFFFFFFFFF, 0x7FFF000000ABCDEF, 0xFF04001000000000]

theorem witness_OpaqueFieldsHaveNoEffect :
    (vscan5Opaque.flatMap wordBytes).length = (loaded vscan5 2).buf.length ∧
    (∀ i, 1 ≤ i →
      (wordAt (vscan5Opaque.flatMap wordBytes) i).map (fun w => ((decodePhoton w).xCoord, (decodePhoton w).yCoord)) =
      (wordAt (loaded vscan5 2).buf i).map (fun w => ((decodePhoton w).xCoord, (decodePhoton w).yCoord))) ∧
    (wordAt (vscan5Opaque.flatMap wordBytes) 0).map (fun w => ((decodeHeader w).channelId, (decodeHeader w).frameNumber)) =
      (wordAt (loaded vscan5 2).buf 0).map (fun w => ((decodeHeader w).channelId, (decodeHeader w).frameNumber)) ∧
    1 ≤ (loaded vscan5 2).si ∧ ∃ t, exec .scan (loaded vscan5 2) = .next t := by
  refine ⟨by decide, fun i _ => ?_, by decide, by decide, _, rfl⟩
  by_cases h : i < 4
  · have key : ∀ i < 4, 1 ≤ i →
        (wordAt (vscan5Opaque.flatMap wordBytes) i).map (fun w => ((decodePhoton w).xCoord, (decodePhoton w).yCoord)) =
        (wordAt (loaded vscan5 2).buf i).map (fun w => ((decodePhoton w).xCoord, (decodePhoton w).yCoord)) := by decide
    exact key i h ‹_›
  · have h1 : (vscan5Opaque.flatMap wordBytes).length = 32 := by decide
    have h2 : (loaded vscan5 2).buf.length = 32 := by decide
    rw [wordAt_eq_none_iff.2 (by omega), wordAt_eq_none_iff.2 (by omega)]

theorem witness_SequenceStateNeverAltersData : ∃ t, exec .scan (loaded e1 3) = .next t := ⟨_, rfl⟩
theorem witness_TickRotatesOnLaterSecond : (loaded e1 3).mode = .run ∧ (loaded e1 3).winSec < 1001 := by decide
theorem witness_TickIgnoresEarlierSecond : 1000 ≤ (loaded e1 3).winSec ∧ 999 ≤ (loaded e1 3).winSec := by decide
theorem witness_OneSnapshotPerCrossedSecond :
    (loaded e1 3).mode = .run ∧ (loaded e1 3).winSec = 1000 ∧ (loaded e1 3).pktCount = 0 ∧
    ∀ k, (loaded e1 3).img.read k = 0 := ⟨by decide, by decide, by decide, fun _ => rfl⟩
/-- V-CTL-4. -/
theorem witness_StopOnlyChangesMode :
    (loaded (e1.take 3) 3).mode = .run ∧ (loaded (e1.take 3) 3).buf.length < 8 * ((loaded (e1.take 3) 3).si + 1) := by
  decide
theorem witness_NoStepChangesNothing :
    hasStep (.push []) { loaded e1 1 with mode := .stopped } = false ∧ hasStep .stop (loaded e1 1) = false ∧
    hasStep .scan (loaded (e1.take 1) 1) = false := by decide
theorem witness_StepPerformsScheduledMove : { loaded e1 1 with sched := [.tick 7, .scan] }.sched = .tick 7 :: [.scan] := rfl
theorem witness_StepRunsDecodedWord :
    (loaded e1 3).sched = [] ∧ wordAt (loaded e1 3).buf (loaded e1 3).si = some 0xFF0300B000000000 ∧
    (loaded (e1.take 3) 3).sched = [] ∧ (loaded (e1.take 3) 3).buf.length < 8 * ((loaded (e1.take 3) 3).si + 1) := by decide
theorem witness_PlacedWordIsRun : 0xFFFFFFFFFFFFFFFF < 2 ^ 64 := by decide
theorem witness_StepKeepsConfiguration : ∃ t, step (loaded e1 3) = .next t := ⟨_, rfl⟩
theorem witness_OnlyResetLeavesStopped :
    { loaded e1 3 with mode := .faulted, sched := [.push [1]] }.mode ≠ .run ∧
    (∃ t, step { loaded e1 3 with mode := .faulted, sched := [.push [1]] } = .next t) ∧
    ∀ n, { loaded e1 3 with mode := .faulted, sched := [.push [1]] }.sched.head? ≠ some (.reset n) :=
  ⟨by decide, ⟨_, rfl⟩, by simp⟩
theorem witness_BufferStaysOnWordGrid :
    (∃ t, step (loaded vscan5 2) = .next t) ∧ (∀ n, (loaded vscan5 2).sched.head? ≠ some (.reset n)) ∧
    (∃ t, step { loaded e1 1 with sched := [.push [1, 2]] } = .next t) ∧
    (∀ n, { loaded e1 1 with sched := [.push [1, 2]] }.sched.head? ≠ some (.reset n)) ∧ cfgE.bufCap = none ∧
    (∀ m ∈ [Move.push [1], .tick 1001], m.isStreaming = true) ∧
    ∃ t, perform [.push [1], .tick 1001] (State.resetWith cfgE 1000) = .next t :=
  ⟨⟨_, rfl⟩, by simp [loaded], ⟨_, rfl⟩, by simp, rfl, by decide, _, rfl⟩
theorem witness_StepKeepsInvariant : Inv (loaded vscan5 2) ∧ ∃ t, step (loaded vscan5 2) = .next t := ⟨by decide, _, rfl⟩
theorem witness_StepKeepsSequenceLaw : SeqLaw (loaded vscan5 2) ∧ ∃ t, step (loaded vscan5 2) = .next t :=
  ⟨fun _ chan => by simp [loaded, packetsOf, State.expected, Vector.get_eq_getElem], _, rfl⟩
theorem witness_StepConservesPhotonCounts :
    ImageInv (loaded vscan5 2) ∧ PixelLaw (loaded vscan5 2) ∧ ∃ t, step (loaded vscan5 2) = .next t :=
  ⟨by decide, fun k _ => by simp [loaded, packetHits], _, rfl⟩
theorem witness_StepKeepsWindowLaw :
    ImageInv { loaded vscan5 2 with sched := [.tick 1001] } ∧ WindowLaw { loaded vscan5 2 with sched := [.tick 1001] } ∧
    ∃ t, step { loaded vscan5 2 with sched := [.tick 1001] } = .next t :=
  ⟨by decide, by simp [WindowLaw, loaded], _, rfl⟩
theorem witness_StepKeepsAnomalyLaw : AnomalyLaw (loaded e1 3) ∧ ∃ t, step (loaded e1 3) = .next t :=
  ⟨by simp [AnomalyLaw, loaded], _, rfl⟩
/-- The bytes of V-SCAN-5 pushed and the scan at the marker: the stream law with a packet still in the buffer. -/
theorem witness_StepKeepsStreamLaw :
    ScanInv (loaded vscan5 2) ∧ StreamLaw (vscan5.flatMap wordBytes) (loaded vscan5 2) ∧
    (∃ t, step (loaded vscan5 2) = .next t) ∧ ∀ n, (loaded vscan5 2).sched.head? ≠ some (.reset n) :=
  ⟨by decide, ⟨rfl, rfl⟩, ⟨_, rfl⟩, by simp [loaded]⟩
theorem witness_PushAndScanCommute :
    (loaded e1 3).cfg.bufCap = none ∧ (loaded e1 3).scanEnabled = true := by decide
theorem witness_DrainTerminates : (loaded vscan5 1).mode = .run ∧ 1 ≤ (loaded vscan5 1).si := by decide

/-- Two moves that push a header-only packet and its terminator, and three that push the same bytes in other chunks. -/
def movesOneChunk : List Move := [.push (wordBytes 0xFF04000000000000 ++ wordBytes 0x7FFF000000000000), .scan]
def movesTwoChunks : List Move := [.push [0xFF, 4, 0], .push [0, 0, 0, 0, 0, 0x7F, 0xFF, 0, 0, 0, 0, 0, 0], .scan]

theorem witness_PacketsAreFunctionOfStream :
    (State.resetWith cfgE 1000).cfg.bufCap = none ∧ (∀ m ∈ movesOneChunk, m.isStreaming = true) ∧
    after (perform movesOneChunk (State.resetWith cfgE 1000)) State.quiescent = some true := by decide
theorem witness_ChunkingDoesNotMatter :
    (State.resetWith cfgE 1000).mode = .run ∧ (State.resetWith cfgE 1000).cfg.bufCap = none ∧
    ScanInv (State.resetWith cfgE 1000) ∧ (∀ m ∈ movesOneChunk, m.isDataOnly = true) ∧
    (∀ m ∈ movesTwoChunks, m.isDataOnly = true) ∧ pushedBytes movesOneChunk = pushedBytes movesTwoChunks ∧
    after (perform movesOneChunk (State.resetWith cfgE 1000)) State.quiescent = some true ∧
    after (perform movesTwoChunks (State.resetWith cfgE 1000)) State.quiescent = some true := by decide
theorem witness_GrammaticalStreamKeepsFraming :
    followsGrammar false (words (vscan5.flatMap wordBytes)) = true ∧
    wordAt (rest (vscan5.flatMap wordBytes)) 0 = some 0xFF04001000000000 := by decide
theorem witness_NothingFaultsOrIsRefused :
    exec (.term 0) { loaded vscan5 0 with si := 0 } = .fault .wordNotWhole := by rfl

/-- A header and a photon word: one SCAN, then one rotation, then SCAN and TICK in turn with nothing left to do. -/
def fairRun : Run where
  states
    | 0 => loaded [0xFF04000000000000, 0x0040100000000000] 1
    | 1 => loaded [0xFF04000000000000, 0x0040100000000000] 2
    | _ + 2 => (loaded [0xFF04000000000000, 0x0040100000000000] 2).rotate 1001
  moves n := if n % 2 = 0 then .scan else .tick 1001
  performed
    | 0 => rfl
    | 1 => rfl
    | n + 2 => by
      rcases Nat.mod_two_eq_zero_or_one n with h | h
      · simp only [Nat.add_mod_right, h, if_true]; rfl
      · simp only [Nat.add_mod_right, h, one_ne_zero, if_false]; rfl

theorem fairRun_fair : fairRun.Fair :=
  ⟨fun n _ => ⟨2 * n, by omega, if_pos (by omega)⟩, fun n _ => ⟨2 * n + 1, by omega, 1001, if_neg (by omega)⟩⟩

theorem witness_FairRunExaminesArrivedWord : fairRun.Fair ∧ (fairRun.states 0).scanEnabled = true :=
  ⟨fairRun_fair, by decide⟩
theorem witness_FairRunRotatesWindow :
    fairRun.Fair ∧ (∀ m ≥ 0, (fairRun.states m).mode = .run) ∧ (∀ m ≥ 0, ∀ sec, fairRun.moves m ≠ .reset sec) ∧
    ∀ m ≥ 0, ∀ now, fairRun.moves m = .tick now → (fairRun.states 0).winSec < now := by
  refine ⟨fairRun_fair, fun m _ => ?_, fun m _ sec => ?_, fun m _ now h => ?_⟩
  · match m with
    | 0 => rfl
    | 1 => rfl
    | _ + 2 => rfl
  · show (if m % 2 = 0 then Move.scan else .tick 1001) ≠ _
    split <;> simp
  · change (if m % 2 = 0 then Move.scan else .tick 1001) = _ at h
    split at h
    · cases h
    · injection h with h; subst h; decide

end Sys2Proof.Tests
end

/-! SUPPORT. The configuration of PRE (00_scope.md R5, R6): which numbers make one, and that no step writes it. -/

namespace Sys2Proof.Machine

/-! ### Building PRE -/

theorem State.build_refused {xpix ypix cntW : Nat} (order : ImgOrder) (resync : Bool) (cap : Option Nat) (sec : Nat)
    (h : xpix = 0 ∨ ypix = 0 ∨ cntW = 0) :
    State.build xpix ypix cntW order resync cap sec = .refused .illegalConfig :=
  dif_neg (by omega)

theorem State.build_eq_resetWith (cfg : Config) (sec : Nat) :
    State.build cfg.xpix cfg.ypix cfg.cntW cfg.imgOrder cfg.seqResync cfg.bufCap sec =
      .next (State.resetWith cfg sec) :=
  dif_pos ⟨cfg.xpix_pos, cfg.ypix_pos, cfg.cntW_pos⟩

/-- A remainder is at most the 10-bit coordinate it is taken of, whatever the image's size. -/
theorem reduceCoords_lt (cfg : Config) (ph : Photon) :
    (reduceCoords cfg ph).1 < 1024 ∧ (reduceCoords cfg ph).2 < 1024 :=
  ⟨(Nat.mod_le ..).trans_lt ph.xCoord.isLt, (Nat.mod_le ..).trans_lt ph.yCoord.isLt⟩

/-- Settles O13: the two branches of `State.build`, and the bound that the coordinates' 10 bits give. -/
theorem illegalConfigurationRefused : Obligations.IllegalConfigurationRefused := by
  refine ⟨fun xpix ypix cntW order resync cap sec => ⟨State.build_refused order resync cap sec, ?_⟩, reduceCoords_lt⟩
  intro hx hy hc
  exact ⟨⟨xpix, ypix, cntW, order, resync, cap, hx, hy, hc⟩, rfl, rfl, rfl, rfl, rfl, rfl,
    State.build_eq_resetWith ⟨xpix, ypix, cntW, order, resync, cap, hx, hy, hc⟩ sec⟩

/-! ### What a guarded operation and a cut leave of the configuration -/

/-- A guarded operation answers the same state, or what the operation answers. -/
theorem State.when_cases {s t : State} {requires : Bool} {act : State → Host.Outcome State Fault Refusal}
    (h : s.when requires act = .next t) : (requires = false ∧ t = s) ∨ (requires = true ∧ act s = .next t) := by
  cases requires with
  | false => exact .inl ⟨rfl, (Host.Outcome.next.inj h).symm⟩
  | true => exact .inr ⟨rfl, h⟩

/-- A guard adds no way to write the configuration. -/
theorem State.when_keeps_cfg {s t : State} {requires : Bool} {act : State → Host.Outcome State Fault Refusal}
    (hact : act s = .next t → t.cfg = s.cfg) (h : s.when requires act = .next t) : t.cfg = s.cfg := by
  rcases State.when_cases h with ⟨-, rfl⟩ | ⟨-, h⟩
  · rfl
  · exact hact h

theorem State.deliver_keeps_cfg {s t : State} {p : List Byte} (h : s.deliver p = .next t) : t.cfg = s.cfg := by
  rcases s.deliver_cases p with ⟨-, hf⟩ | ⟨w, ws, -, hn⟩
  · cases hf.symm.trans h
  · cases hn.symm.trans h
    simp

theorem State.cut_keeps_cfg {s t : State} {n : Nat} (h : s.cut n = .next t) : t.cfg = s.cfg :=
  (State.deliver_keeps_cfg h).trans (by simp)

theorem State.advance_keeps_cfg {s t : State} (h : s.advance = .next t) : t.cfg = s.cfg := by
  cases h
  rfl

theorem State.examine_keeps_cfg {s t : State} (h : s.examine = .next t) : t.cfg = s.cfg := by
  rcases State.examine_cases h with rfl | ⟨n, w, ws, -, -, rfl⟩
  · rfl
  · simp

/-! ### Instructions and steps -/

theorem execHdr0_keeps_cfg {sm ch : BitVec 8} {fr : BitVec 12} {ts : BitVec 36} {s t : State}
    (h : execHdr0 sm ch fr ts s = .next t) : t.cfg = s.cfg := by
  rcases State.when_cases h with ⟨-, rfl⟩ | ⟨-, h⟩
  · rfl
  · cases h
    simp

theorem execPush_keeps_cfg {c : List Byte} {s t : State} (h : execPush c s = .next t) : t.cfg = s.cfg := by
  rcases State.when_cases h with ⟨-, rfl⟩ | ⟨-, h⟩
  · rfl
  · split at h <;> cases h <;> rfl

theorem execTick_keeps_cfg {now : Nat} {s t : State} (h : execTick now s = .next t) : t.cfg = s.cfg := by
  rcases State.when_cases h with ⟨-, rfl⟩ | ⟨-, h⟩
  · rfl
  · split at h <;> cases h <;> rfl

theorem execStop_keeps_cfg {s t : State} (h : execStop s = .next t) : t.cfg = s.cfg := by
  rcases State.when_cases h with ⟨-, rfl⟩ | ⟨-, h⟩
  · rfl
  · cases h
    rfl

/-- No instruction writes the configuration, RESET included (70_reset_and_hazards.md R160). -/
theorem exec_keeps_cfg {i : Instr} {s t : State} (h : exec i s = .next t) : t.cfg = s.cfg := by
  cases i with
  | hdr0 sm ch fr ts => exact execHdr0_keeps_cfg h
  | hdr ch fr ts => exact State.when_keeps_cfg State.cut_keeps_cfg h
  | term r => exact State.when_keeps_cfg State.cut_keeps_cfg h
  | photon x y lt wv bl => exact State.when_keeps_cfg State.advance_keeps_cfg h
  | reset n => cases h; rfl
  | push c => exact execPush_keeps_cfg h
  | scan => exact State.when_keeps_cfg State.examine_keeps_cfg h
  | tick n => exact execTick_keeps_cfg h
  | stop => exact execStop_keeps_cfg h

@[simp] theorem State.fetch_cfg (s : State) : s.fetch.2.cfg = s.cfg := by
  cases h : s.sched with
  | nil => rw [State.fetch_nil h]
  | cons m ms => rw [State.fetch_cons h]

/-- Settles O42: fetching changes the schedule only, and no instruction writes the configuration. -/
theorem stepKeepsConfiguration : Obligations.StepKeepsConfiguration :=
  fun s _ h => (exec_keeps_cfg h).trans s.fetch_cfg

end Sys2Proof.Machine

/-! SUPPORT. What one move can do, said once as a relation between states, and the invariants of 10_state.md that every
step keeps. -/

namespace Sys2Proof.Machine

/-! ### The state a boundary leaves -/

/-- The state SCAN leaves at a boundary that removes `n` bytes, where the words of the packet in front of `si` are
`w :: ws` (41_reassembly.md R82 to R84). -/
def State.afterBoundary (s : State) (n : Nat) (w : Word) (ws : List Word) : State :=
  ((({ s with buf := s.buf.drop n, si := 1 } : State).emitPacket (s.buf.take (8 * s.si))).checkOversize
    (s.buf.take (8 * s.si)).length).record (decodeHeader w) (ws.map fun v => reduceCoords s.cfg (decodePhoton v))

section afterBoundary
variable (s : State) (n : Nat) (w : Word) (ws : List Word)

/-- The sequence check of a boundary's packet reads the `Seq` from before the boundary. -/
theorem State.expected_before_record (p : List Byte) (len : Nat) (c : BitVec 8) :
    ((({ s with buf := s.buf.drop n, si := 1 } : State).emitPacket p).checkOversize len).expected c =
      s.expected c :=
  State.expected_congr (by simp) c

@[simp] theorem State.afterBoundary_mode : (s.afterBoundary n w ws).mode = s.mode := by simp [State.afterBoundary]
@[simp] theorem State.afterBoundary_buf : (s.afterBoundary n w ws).buf = s.buf.drop n := by simp [State.afterBoundary]
@[simp] theorem State.afterBoundary_si : (s.afterBoundary n w ws).si = 1 := by simp [State.afterBoundary]
@[simp] theorem State.afterBoundary_img : (s.afterBoundary n w ws).img =
    s.img.accumulate s.cfg (ws.map fun v => reduceCoords s.cfg (decodePhoton v)) := by simp [State.afterBoundary]
@[simp] theorem State.afterBoundary_winSec : (s.afterBoundary n w ws).winSec = s.winSec := by
  simp [State.afterBoundary]
@[simp] theorem State.afterBoundary_pktCount : (s.afterBoundary n w ws).pktCount = s.pktCount + 1 := by
  simp [State.afterBoundary]
@[simp] theorem State.afterBoundary_nSeqAnom : (s.afterBoundary n w ws).nSeqAnom =
    s.nSeqAnom + (if s.expected (decodeHeader w).channelId = (decodeHeader w).frameNumber then 0 else 1) := by
  simp [State.afterBoundary, s.expected_before_record]
@[simp] theorem State.afterBoundary_nOversize : (s.afterBoundary n w ws).nOversize =
    s.nOversize + (if 832 < (s.buf.take (8 * s.si)).length then 1 else 0) := by
  simp [State.afterBoundary]
@[simp] theorem State.afterBoundary_pktOut : (s.afterBoundary n w ws).pktOut =
    s.pktOut ++ [s.buf.take (8 * s.si)] := by simp [State.afterBoundary]
@[simp] theorem State.afterBoundary_snapOut : (s.afterBoundary n w ws).snapOut = s.snapOut := by
  simp [State.afterBoundary]
@[simp] theorem State.afterBoundary_renderOut : (s.afterBoundary n w ws).renderOut = s.renderOut := by
  simp [State.afterBoundary]
@[simp] theorem State.afterBoundary_diagOut : (s.afterBoundary n w ws).diagOut =
    s.diagOut ++ (if 832 < (s.buf.take (8 * s.si)).length then [.oversize (s.buf.take (8 * s.si)).length] else []) ++
      (if s.expected (decodeHeader w).channelId = (decodeHeader w).frameNumber then []
       else [.seqMismatch (decodeHeader w).channelId (s.expected (decodeHeader w).channelId)
        (decodeHeader w).frameNumber]) := by
  simp [State.afterBoundary, s.expected_before_record]
@[simp] theorem State.afterBoundary_cfg : (s.afterBoundary n w ws).cfg = s.cfg := by simp [State.afterBoundary]
@[simp] theorem State.afterBoundary_sched : (s.afterBoundary n w ws).sched = s.sched := by
  simp [State.afterBoundary]

end afterBoundary

theorem State.cut_cases {s t : State} {n : Nat} (h : s.cut n = .next t) :
    ∃ w ws, words (s.buf.take (8 * s.si)) = w :: ws ∧ t = s.afterBoundary n w ws := by
  rw [State.cut_eq] at h
  rcases State.deliver_cases { s with buf := s.buf.drop n, si := 1 } (s.buf.take (8 * s.si)) with
    ⟨-, hf⟩ | ⟨w, ws, hw, hn⟩
  · cases hf.symm.trans h
  · exact ⟨w, ws, hw, Host.Outcome.next.inj (h.symm.trans hn)⟩

/-! ### What a move can do -/

/-- Everything a move can do: the transitions of PRE one by one, each with what it requires (44_control.md R134). -/
inductive MoveStep : Move → State → State → Prop where
  | noStep {m : Move} {s : State} (hs : hasStep m.toInstr s = false) : MoveStep m s s
  | reset {s : State} (sec : Nat) : MoveStep (.reset sec) s (s.restart sec)
  | append {s : State} {c : List Byte} (hr : s.mode = .run) (hfit : s.wouldOverflow c.length = false) :
      MoveStep (.push c) s (s.append c)
  | overflow {s : State} {c : List Byte} (hr : s.mode = .run) (hover : s.wouldOverflow c.length = true) :
      MoveStep (.push c) s s.raiseBufferOverflow
  | advance {s : State} {v : Word} (hr : s.mode = .run) (hv : wordAt s.buf s.si = some v)
      (hc : classify v = .photon) : MoveStep .scan s (s.setSi (s.si + 1))
  | boundary {s : State} {v w : Word} {ws : List Word} {n : Nat} (hr : s.mode = .run)
      (hv : wordAt s.buf s.si = some v)
      (hn : classify v = .hdr ∧ n = 8 * s.si ∨ classify v = .term ∧ n = 8 * s.si + 8)
      (hw : words (s.buf.take (8 * s.si)) = w :: ws) : MoveStep .scan s (s.afterBoundary n w ws)
  | sameSecond {s : State} {now : Nat} (hr : s.mode = .run) (hnow : now ≤ s.winSec) : MoveStep (.tick now) s s
  | rotate {s : State} {now : Nat} (hr : s.mode = .run) (hnow : s.winSec < now) :
      MoveStep (.tick now) s (s.rotate now)
  | stop {s : State} (hq : s.quiescent = true) : MoveStep .stop s { s with mode := .stopped }

theorem MoveStep.of_push {c : List Byte} {s t : State} (h : execPush c s = .next t) : MoveStep (.push c) s t := by
  rcases State.when_cases h with ⟨hr, rfl⟩ | ⟨hr, h⟩
  · exact .noStep hr
  · rw [State.running_iff] at hr
    split at h
    next hover => cases h; exact .overflow hr hover
    next hfit => cases h; exact .append hr (Bool.not_eq_true _ ▸ hfit)

theorem MoveStep.of_scan {s t : State} (h : execScan s = .next t) : MoveStep .scan s t := by
  rcases State.when_cases h with ⟨he, rfl⟩ | ⟨he, h⟩
  · exact .noStep he
  · obtain ⟨hr, hlen⟩ := s.scanEnabled_iff.1 he
    obtain ⟨v, hv⟩ := wordAt_isSome hlen
    rw [State.examine_eq hv] at h
    cases hc : classify v with
    | photon => simp only [hc] at h; cases h; exact .advance hr hv hc
    | hdr =>
      simp only [hc] at h
      obtain ⟨w, ws, hw, rfl⟩ := State.cut_cases h
      exact .boundary hr hv (.inl ⟨hc, rfl⟩) hw
    | term =>
      simp only [hc] at h
      obtain ⟨w, ws, hw, rfl⟩ := State.cut_cases h
      exact .boundary hr hv (.inr ⟨hc, rfl⟩) hw

theorem MoveStep.of_tick {now : Nat} {s t : State} (h : execTick now s = .next t) : MoveStep (.tick now) s t := by
  rcases State.when_cases h with ⟨hr, rfl⟩ | ⟨hr, h⟩
  · exact .noStep hr
  · rw [State.running_iff] at hr
    split at h
    next hnow => cases h; exact .rotate hr hnow
    next hnow => cases h; exact .sameSecond hr (Nat.le_of_not_lt hnow)

theorem MoveStep.of_stop {s t : State} (h : execStop s = .next t) : MoveStep .stop s t := by
  rcases State.when_cases h with ⟨hq, rfl⟩ | ⟨hq, h⟩
  · exact .noStep hq
  · cases h; exact .stop hq

/-- Performing a move is one of the transitions. -/
theorem MoveStep.of_exec {m : Move} {s t : State} (h : exec m.toInstr s = .next t) : MoveStep m s t := by
  cases m with
  | reset sec => cases h; exact .reset sec
  | push c => exact .of_push h
  | scan => exact .of_scan h
  | tick now => exact .of_tick h
  | stop => exact .of_stop h

/-! ### What a step can do -/

/-- The move a step performs: the first one scheduled, or PRE's own SCAN. -/
def State.nextMove (s : State) : Move := s.sched.head?.getD .scan

theorem State.fetch_eq (s : State) : s.fetch = (s.nextMove.toInstr, { s with sched := s.sched.tail }) := by
  unfold State.nextMove
  cases h : s.sched with
  | nil => rw [State.fetch_nil h]; cases s; cases h; rfl
  | cons m ms => rw [State.fetch_cons h]; rfl

/-- A step performs the next move in the state without it. -/
theorem MoveStep.of_step {s t : State} (h : step s = .next t) :
    MoveStep s.nextMove { s with sched := s.sched.tail } t := by
  rw [step, State.fetch_eq] at h
  exact .of_exec h

theorem State.nextMove_eq_reset_iff {s : State} {n : Nat} :
    s.nextMove = .reset n ↔ s.sched.head? = some (.reset n) := by
  unfold State.nextMove
  cases s.sched.head? <;> simp

theorem State.nextMove_eq_scan_iff {s : State} :
    s.nextMove = .scan ↔ s.sched.head? = none ∨ s.sched.head? = some .scan := by
  unfold State.nextMove
  cases s.sched.head? <;> simp

theorem State.nextMove_bytes (s : State) : s.nextMove.bytes = (s.sched.head?.map Move.bytes).getD [] := by
  unfold State.nextMove
  cases s.sched.head? <;> rfl

/-! ### The reset state -/

/-- With `si = 1` no word has been passed. -/
theorem ScanInv.of_si_eq_one {s : State} (h : s.si = 1) : ScanInv s :=
  ⟨h.ge, .inl h, fun j hj h1 => by omega⟩

theorem resetWith_meets_inv (cfg : Config) (n : Nat) : Inv (State.resetWith cfg n) :=
  ⟨.of_si_eq_one rfl, ⟨Memory.wf_nil, Memory.fits_nil _ _⟩, fun cap _ => Nat.zero_le cap, by simp [PacketInv]⟩

theorem resetWith_meets_seqLaw (cfg : Config) (n : Nat) : SeqLaw (State.resetWith cfg n) :=
  fun _ chan => by simp [packetsOf]

theorem resetWith_meets_pixelLaw (cfg : Config) (n : Nat) : PixelLaw (State.resetWith cfg n) :=
  fun k _ => by simp [packetHits]

theorem resetWith_meets_windowLaw (cfg : Config) (n : Nat) : WindowLaw (State.resetWith cfg n) := by
  simp [WindowLaw]

theorem resetWith_meets_anomalyLaw (cfg : Config) (n : Nat) : AnomalyLaw (State.resetWith cfg n) := by
  simp [AnomalyLaw]

/-- Settles O45: each law by itself, and the machine's reset state is the one of the installed configuration. -/
theorem resetMeetsInvariants : Obligations.ResetMeetsInvariants :=
  ⟨fun cfg n => ⟨resetWith_meets_inv cfg n, resetWith_meets_seqLaw cfg n, resetWith_meets_pixelLaw cfg n,
    resetWith_meets_windowLaw cfg n, resetWith_meets_anomalyLaw cfg n⟩, resetWith_meets_inv _ _⟩

/-- Settles O15: the reset state's elements read off, `Seq` and the image by their reading lemmas. -/
theorem machineStartsInResetState : Obligations.MachineStartsInResetState :=
  ⟨rfl, rfl, rfl, State.expected_resetWith _ _, Memory.read_nil, rfl, rfl, rfl, rfl, rfl, rfl, rfl, rfl⟩

/-! ### Out of RUN -/

theorem MoveStep.eq_of_not_run {m : Move} {s t : State} (h : MoveStep m s t) (hr : s.mode ≠ .run)
    (hm : ∀ n, m ≠ .reset n) : t = s := by
  cases h with
  | noStep | sameSecond => rfl
  | reset sec => exact absurd rfl (hm sec)
  | append hrun | overflow hrun | advance hrun | boundary hrun | rotate hrun => exact absurd hrun hr
  | stop hq => exact absurd (s.quiescent_iff.1 hq).1 hr

/-- Settles O43: every transition but RESET requires RUN. -/
theorem onlyResetLeavesStopped : Obligations.OnlyResetLeavesStopped :=
  fun _ _ hr hstep hm =>
    (MoveStep.of_step hstep).eq_of_not_run hr fun n he => hm n (State.nextMove_eq_reset_iff.1 he)

/-! ### The invariant of 10_state.md R25 -/

theorem wordAt_take {b : List Byte} {n i : Nat} {w : Word} (h : wordAt (b.take n) i = some w) :
    wordAt b i = some w := by
  simpa using wordAt_append h (b.drop n)

theorem ScanInv.append {s : State} (hi : ScanInv s) (c : List Byte) : ScanInv (s.append c) := by
  obtain ⟨h1, hlen, hph⟩ := hi
  refine ⟨h1, hlen.imp_right fun h => ?_, fun j hj hj1 => ?_⟩
  · simp only [State.append_buf, State.append_si, List.length_append]; omega
  · obtain ⟨w, hw, hc⟩ := Option.map_eq_some_iff.1 (hph j hj hj1)
    simp [wordAt_append hw, hc]

/-- A photon word at `si` joins the words that have been passed. -/
theorem ScanInv.advance {s : State} (hi : ScanInv s) {v : Word} (hv : wordAt s.buf s.si = some v)
    (hc : classify v = .photon) : ScanInv (s.setSi (s.si + 1)) := by
  obtain ⟨-, -, hph⟩ := hi
  refine ⟨Nat.succ_pos _, .inr (wordAt_le hv), fun j hj hj1 => ?_⟩
  rcases Nat.lt_succ_iff_lt_or_eq.1 hj with hlt | rfl
  · exact hph j hlt hj1
  · simp [hv, hc]

/-- The packet in front of `si` is whole words, and the scanner has passed a photon at each but the first
(41_reassembly.md R91). -/
theorem ScanInv.packet {s : State} (hi : ScanInv s) (hlen : 8 * s.si ≤ s.buf.length) :
    (s.buf.take (8 * s.si)).length % 8 = 0 ∧ 8 ≤ (s.buf.take (8 * s.si)).length ∧
      (words (s.buf.take (8 * s.si))).tail.all fun w => decide (classify w = .photon) := by
  obtain ⟨h1, -, hph⟩ := hi
  have hp : (s.buf.take (8 * s.si)).length = 8 * s.si := List.length_take_of_le hlen
  refine ⟨by omega, by omega, List.all_eq_true.2 fun w hw => decide_eq_true ?_⟩
  obtain ⟨i, hget⟩ := List.mem_iff_getElem?.1 hw
  rw [List.getElem?_tail, words_getElem?] at hget
  have hlt := wordAt_le hget
  simpa [wordAt_take hget] using hph (i + 1) (by omega) (by omega)

theorem PacketInv.afterBoundary {s : State} (hp : PacketInv s) (hi : ScanInv s) (hlen : 8 * s.si ≤ s.buf.length)
    (n : Nat) (w : Word) (ws : List Word) : PacketInv (s.afterBoundary n w ws) := by
  intro p hmem
  rw [State.afterBoundary_pktOut, List.mem_append, List.mem_singleton] at hmem
  rcases hmem with hmem | rfl
  · exact hp p hmem
  · exact hi.packet hlen

theorem CapacityInv.append {s : State} {c : List Byte} (hfit : s.wouldOverflow c.length = false) :
    CapacityInv (s.append c) := by
  intro cap hcap
  by_contra hlt
  rw [State.append_buf, List.length_append, Nat.not_le] at hlt
  have hover : s.wouldOverflow c.length = true := (s.wouldOverflow_iff _).2 ⟨cap, hcap, hlt⟩
  cases hfit.symm.trans hover

theorem Inv.afterBoundary {s : State} (hi : Inv s) (hlen : 8 * s.si ≤ s.buf.length) (n : Nat) (w : Word)
    (ws : List Word) : Inv (s.afterBoundary n w ws) := by
  obtain ⟨hscan, himg, hcap, hpkt⟩ := hi
  refine ⟨.of_si_eq_one (by simp), by simpa [ImageInv] using accumulate_inv himg ws, fun cap hc => ?_,
    hpkt.afterBoundary hscan hlen n w ws⟩
  have := hcap cap (by simpa using hc)
  simp only [State.afterBoundary_buf, List.length_drop]
  omega

theorem MoveStep.keeps_inv {m : Move} {s t : State} (h : MoveStep m s t) (hi : Inv s) : Inv t := by
  have ⟨hscan, himg, hcap, hpkt⟩ := hi
  cases h with
  | noStep | sameSecond | overflow | stop => exact hi
  | reset sec => exact resetWith_meets_inv s.cfg sec
  | append _ hfit => exact ⟨hscan.append _, himg, .append hfit, hpkt⟩
  | advance _ hv hc => exact ⟨hscan.advance hv hc, himg, hcap, hpkt⟩
  | boundary _ hv => exact hi.afterBoundary (by have := wordAt_le hv; omega) _ _ _
  | rotate => exact ⟨hscan, ⟨Memory.wf_nil, Memory.fits_nil _ _⟩, hcap, hpkt⟩

/-- Settles O46: the invariant does not read the schedule, and each transition keeps it. -/
theorem stepKeepsInvariant : Obligations.StepKeepsInvariant :=
  fun _ _ hi hstep => (MoveStep.of_step hstep).keeps_inv hi

/-! ### The anomaly law -/

/-- A boundary flags its packet where it is longer than 832 bytes, and its header where the frame is not the expected
one; the length reported is 8 bytes for each word in front of `si`. -/
theorem AnomalyLaw.afterBoundary {s : State} (ha : AnomalyLaw s) (hlen : 8 * s.si ≤ s.buf.length) (n : Nat) (w : Word)
    (ws : List Word) : AnomalyLaw (s.afterBoundary n w ws) := by
  obtain ⟨hover, hseq, hlong, hlegal⟩ := ha
  have hp : (s.buf.take (8 * s.si)).length = 8 * s.si := List.length_take_of_le hlen
  simp only [AnomalyLaw, State.afterBoundary_nOversize, State.afterBoundary_nSeqAnom, State.afterBoundary_diagOut,
    State.afterBoundary_pktOut, hp, List.countP_append, ← hover, ← hseq, ← hlong]
  refine ⟨?_, ?_, ?_, fun e he => ?_⟩
  · split <;> split <;> simp [Diag.isOversize]
  · split <;> split <;> simp [Diag.isMismatch]
  · simp [List.countP_singleton, hp]
  · rw [List.mem_append, List.mem_append] at he
    rcases he with (he | he) | he
    · exact hlegal e he
    · split at he
      next hl => cases List.mem_singleton.1 he; exact ⟨hl, Nat.mul_mod_right 8 s.si⟩
      next => cases he
    · split at he
      next => cases he
      next hne => cases List.mem_singleton.1 he; exact hne

/-- A rotation reports a window, which is no anomaly. -/
theorem AnomalyLaw.rotate {s : State} (ha : AnomalyLaw s) (now : Nat) : AnomalyLaw (s.rotate now) := by
  obtain ⟨hover, hseq, hlong, hlegal⟩ := ha
  refine ⟨by simpa [Diag.isOversize] using hover, by simpa [Diag.isMismatch] using hseq, hlong, fun e he => ?_⟩
  rw [State.rotate_diagOut, List.mem_append, List.mem_singleton] at he
  rcases he with he | rfl
  · exact hlegal e he
  · trivial

theorem MoveStep.keeps_anomalyLaw {m : Move} {s t : State} (h : MoveStep m s t) (ha : AnomalyLaw s) :
    AnomalyLaw t := by
  cases h with
  | noStep | sameSecond | append | overflow | advance | stop => exact ha
  | reset sec => exact resetWith_meets_anomalyLaw s.cfg sec
  | boundary _ hv => exact ha.afterBoundary (by have := wordAt_le hv; omega) _ _ _
  | rotate => exact ha.rotate _

/-- Settles O50: only a boundary flags, and only a boundary emits a packet. -/
theorem stepKeepsAnomalyLaw : Obligations.StepKeepsAnomalyLaw :=
  fun _ _ ha hstep => (MoveStep.of_step hstep).keeps_anomalyLaw ha

/-! ### The buffer and the stream -/

/-- A move without a step pushes nothing: it is no PUSH, or PRE is not running. -/
theorem bytes_eq_nil_of_noStep {m : Move} {s : State} (hs : hasStep m.toInstr s = false) (hr : s.mode = .run) :
    m.bytes = [] := by
  cases m with
  | push c => cases hs.symm.trans (s.running_iff.2 hr)
  | reset | scan | tick | stop => rfl

/-- From the front of `s`'s buffer nothing is removed, or by a SCAN the words before `si`, or those and the marker; after
what is left stand in `t` the bytes of `m`, where `t` is running (20_memory.md R37, R38). -/
abbrev BufferChange (m : Move) (s t : State) : Prop :=
  ∃ n, (n = 0 ∨ n = 8 * s.si ∨ n = 8 * s.si + 8) ∧ n ≤ s.buf.length ∧ (n ≠ 0 → m = .scan) ∧
    t.buf = s.buf.drop n ++ (if t.mode = .run then m.bytes else [])

theorem BufferChange.of_append {m : Move} {s t : State} (h : t.buf = s.buf ++ (if t.mode = .run then m.bytes else [])) :
    BufferChange m s t :=
  ⟨0, .inl rfl, Nat.zero_le _, fun h => absurd rfl h, h⟩

theorem MoveStep.bufferChange {m : Move} {s t : State} (h : MoveStep m s t) (hm : ∀ n, m ≠ .reset n) :
    BufferChange m s t := by
  cases h with
  | noStep hs =>
    refine .of_append ?_
    split
    next hr => simp [bytes_eq_nil_of_noStep hs hr]
    next => simp
  | reset sec => exact absurd rfl (hm sec)
  | append hr | advance hr | sameSecond hr | rotate hr => exact .of_append (by simp [hr, Move.bytes])
  | overflow | stop => exact .of_append (by simp)
  | boundary _ hv hn =>
    have hlen := wordAt_le hv
    refine ⟨_, .inr (hn.imp And.right And.right), ?_, fun _ => rfl, by simp [Move.bytes]⟩
    rcases hn with ⟨-, rfl⟩ | ⟨-, rfl⟩ <;> omega

/-- `c` is `b` with whole words removed from its front (10_state.md R25 item 3). -/
def IsWordSuffix (b c : List Byte) : Prop := ∃ k, 8 * k ≤ b.length ∧ c = b.drop (8 * k)

/-- Removing more words and appending to both leaves a suffix by words. -/
theorem IsWordSuffix.drop_append {b c : List Byte} (h : IsWordSuffix b c) {j : Nat} (hj : 8 * j ≤ c.length)
    (u : List Byte) : IsWordSuffix (b ++ u) (c.drop (8 * j) ++ u) := by
  obtain ⟨k, hk, rfl⟩ := h
  rw [List.length_drop] at hj
  refine ⟨k + j, by rw [List.length_append]; omega, ?_⟩
  rw [List.drop_drop, ← Nat.mul_add, List.drop_append_of_le_length (by omega)]

theorem ne_reset_of_isStreaming {m : Move} (hm : m.isStreaming = true) (n : Nat) : m ≠ .reset n := by
  rintro rfl
  cases hm

/-- PUSH, SCAN and TICK stay in RUN where the buffer has no bound. -/
theorem MoveStep.keeps_run {m : Move} {s t : State} (h : MoveStep m s t) (hm : m.isStreaming = true)
    (hr : s.mode = .run) (hcap : s.cfg.bufCap = none) : t.mode = .run := by
  cases h with
  | noStep | append | advance | sameSecond | rotate => exact hr
  | reset => rfl
  | overflow _ hover => simp [State.wouldOverflow, hcap] at hover
  | boundary => simpa using hr
  | stop => cases hm

/-- A streaming move in RUN keeps the buffer a suffix by words of the stream, which grows by what the move pushes. -/
theorem MoveStep.keeps_isWordSuffix {m : Move} {s t : State} {b : List Byte} (h : MoveStep m s t)
    (hm : m.isStreaming = true) (ht : t.mode = .run) (hb : IsWordSuffix b s.buf) :
    IsWordSuffix (b ++ m.bytes) t.buf := by
  obtain ⟨n, hn, hlen, -, hbuf⟩ := h.bufferChange (ne_reset_of_isStreaming hm)
  obtain ⟨j, rfl⟩ : ∃ j, n = 8 * j := ⟨n / 8, by omega⟩
  rw [hbuf, if_pos ht]
  exact hb.drop_append hlen m.bytes

theorem perform_cons {m : Move} {ms : List Move} {s t : State} (h : perform (m :: ms) s = .next t) :
    ∃ u, exec m.toInstr s = .next u ∧ perform ms u = .next t := by
  rw [perform] at h
  split at h
  next u hu => exact ⟨u, hu, h⟩
  all_goals cases h

theorem perform_isWordSuffix {ms : List Move} {s t : State} {b : List Byte} (hms : ∀ m ∈ ms, m.isStreaming = true)
    (hr : s.mode = .run) (hcap : s.cfg.bufCap = none) (hb : IsWordSuffix b s.buf) (h : perform ms s = .next t) :
    IsWordSuffix (b ++ pushedBytes ms) t.buf := by
  induction ms generalizing s b with
  | nil => cases h; simpa [pushedBytes] using hb
  | cons m ms ih =>
    obtain ⟨u, hu, h⟩ := perform_cons h
    obtain ⟨hm, hms⟩ := List.forall_mem_cons.1 hms
    have hstep := MoveStep.of_exec hu
    have hur := hstep.keeps_run hm hr hcap
    have hcapu : u.cfg.bufCap = none := by rw [exec_keeps_cfg hu, hcap]
    have := ih hms hur hcapu (hstep.keeps_isWordSuffix hm hur hb) h
    rwa [List.append_assoc] at this

/-- Settles O44: the buffer's change move by move, and for a run the induction over its moves. -/
theorem bufferStaysOnWordGrid : Obligations.BufferStaysOnWordGrid := by
  refine ⟨fun s t hstep hm => ?_, fun cfg sec ms t hcap hms h => ?_⟩
  · obtain ⟨n, hn, hlen, hscan, hbuf⟩ :=
      (MoveStep.of_step hstep).bufferChange fun n he => hm n (State.nextMove_eq_reset_iff.1 he)
    rw [State.nextMove_bytes] at hbuf
    exact ⟨n, hn, hlen, fun h0 => State.nextMove_eq_scan_iff.1 (hscan h0), hbuf⟩
  · exact perform_isWordSuffix (b := []) hms rfl hcap ⟨0, le_rfl, rfl⟩ h

end Sys2Proof.Machine

/-! SUPPORT. The memory rules of 20_memory.md: the byte order of words, what PUSH does to the buffer, the image index
and the bytes of a snapshot. -/

namespace Sys2Proof

/-! ### The byte order of a word -/

/-- The eight weighted bytes stay below 2^64, so nothing is cut off. -/
theorem be64_toNat (b0 b1 b2 b3 b4 b5 b6 b7 : Byte) :
    (be64 b0 b1 b2 b3 b4 b5 b6 b7).toNat =
      b0.toNat * 2 ^ 56 + b1.toNat * 2 ^ 48 + b2.toNat * 2 ^ 40 + b3.toNat * 2 ^ 32 + b4.toNat * 2 ^ 24 +
        b5.toNat * 2 ^ 16 + b6.toNat * 2 ^ 8 + b7.toNat := by
  rw [be64, BitVec.toNat_ofNat, Nat.mod_eq_of_lt]
  omega

theorem takeWord_eq_some {s t : List Byte} {w : Word} (h : takeWord s = some (w, t)) :
    ∃ b0 b1 b2 b3 b4 b5 b6 b7, s = b0 :: b1 :: b2 :: b3 :: b4 :: b5 :: b6 :: b7 :: t ∧
      w = be64 b0 b1 b2 b3 b4 b5 b6 b7 := by
  unfold takeWord at h
  split at h
  · cases h
    exact ⟨_, _, _, _, _, _, _, _, rfl, rfl⟩
  · cases h

/-- Settles O5: the bytes of the word at index `i` are the first eight of `s` from byte `8 * i` on. -/
theorem wordsAreBigEndian : Obligations.WordsAreBigEndian := by
  intro s i w h
  obtain ⟨⟨_, t⟩, ht, rfl⟩ := Option.map_eq_some_iff.1 h
  obtain ⟨b0, b1, b2, b3, b4, b5, b6, b7, hs, rfl⟩ := takeWord_eq_some ht
  have hbyte (j : Nat) : s.getD (8 * i + j) 0 = (s.drop (8 * i)).getD j 0 := by
    simp only [List.getD_eq_getElem?_getD, List.getElem?_drop]
  have hbyte0 := hbyte 0
  rw [Nat.add_zero] at hbyte0
  simp only [hbyte, hbyte0, hs, be64_toNat, List.getD_cons_zero, List.getD_cons_succ]

end Sys2Proof

namespace Sys2Proof.Machine

/-! ### PUSH -/

theorem State.wouldOverflow_eq_false {s : State} {n : Nat} (hfit : ∀ cap ∈ s.cfg.bufCap, s.buf.length + n ≤ cap) :
    s.wouldOverflow n = false := by
  rw [← Bool.not_eq_true, s.wouldOverflow_iff]
  rintro ⟨cap, hcap, hover⟩
  exact hover.not_ge (hfit cap hcap)

/-- PUSH that has a step and fits is the append. -/
theorem execPush_eq_append {c : List Byte} {s : State} (hr : s.mode = .run) (hfit : s.wouldOverflow c.length = false) :
    execPush c s = .next (s.append c) := by
  rw [execPush, State.when_true (s.running_iff.2 hr), hfit, if_neg Bool.false_ne_true]

/-- Settles O16: in RUN and within the capacity PUSH is the append. -/
theorem pushAppendsChunk : Obligations.PushAppendsChunk :=
  fun _ _ hr hfit => execPush_eq_append hr (State.wouldOverflow_eq_false hfit)

/-- A PUSH removes nothing from the buffer, in whatever mode it is presented: it appends, or leaves the buffer. -/
theorem push_buf_eq_append {c : List Byte} {s t : State} (h : exec (.push c) s = .next t) :
    ∃ u, t.buf = s.buf ++ u := by
  cases MoveStep.of_push h with
  | noStep | overflow => exact ⟨[], (List.append_nil _).symm⟩
  | append => exact ⟨c, rfl⟩

/-- Settles O19: the buffer after a PUSH extends the buffer before it. -/
theorem pushKeepsEarlierBytes : Obligations.PushKeepsEarlierBytes := by
  intro c s t h
  obtain ⟨u, hu⟩ := push_buf_eq_append h
  rw [hu]
  exact ⟨fun _ ha => List.getElem?_append_left ha, fun _ _ hw => wordAt_append hw u⟩

/-! ### The schedule -/

/-- Settles O39: fetching takes the first move of the schedule. -/
theorem stepPerformsScheduledMove : Obligations.StepPerformsScheduledMove := by
  intro s m ms h
  rw [step, State.fetch_cons h]

/-! ### The image index -/

/-- The pixel of an index: quotient and remainder by the size of the fast axis, the inverse of `pixelIndex`
(20_memory.md R40). -/
def pixelOfIndex (cfg : Config) (k : Nat) : Nat × Nat :=
  match cfg.imgOrder with
  | .xMajor => (k / cfg.ypix, k % cfg.ypix)
  | .yMajor => (k % cfg.xpix, k / cfg.xpix)

theorem pixelIndex_lt_pixelCount {cfg : Config} {x y : Nat} (hx : x < cfg.xpix) (hy : y < cfg.ypix) :
    pixelIndex cfg (x, y) < pixelCount cfg := by
  unfold pixelIndex pixelCount
  split
  · rw [Nat.mul_comm x]; exact Nat.mul_add_lt_mul_of_lt_of_lt hx hy
  · rw [Nat.mul_comm y, Nat.mul_comm cfg.xpix cfg.ypix]; exact Nat.mul_add_lt_mul_of_lt_of_lt hy hx

theorem pixelOfIndex_pixelIndex {cfg : Config} {x y : Nat} (hx : x < cfg.xpix) (hy : y < cfg.ypix) :
    pixelOfIndex cfg (pixelIndex cfg (x, y)) = (x, y) := by
  unfold pixelIndex pixelOfIndex
  cases cfg.imgOrder with
  | xMajor => simp [Nat.mul_comm x, Nat.mul_add_div cfg.ypix_pos, Nat.div_eq_of_lt hy, Nat.mod_eq_of_lt hy]
  | yMajor => simp [Nat.mul_comm y, Nat.mul_add_div cfg.xpix_pos, Nat.div_eq_of_lt hx, Nat.mod_eq_of_lt hx]

theorem pixelIndex_pixelOfIndex (cfg : Config) (k : Nat) : pixelIndex cfg (pixelOfIndex cfg k) = k := by
  unfold pixelIndex pixelOfIndex
  cases cfg.imgOrder with
  | xMajor => exact Nat.div_add_mod' k cfg.ypix
  | yMajor => exact Nat.div_add_mod' k cfg.xpix

theorem pixelOfIndex_lt {cfg : Config} {k : Nat} (hk : k < pixelCount cfg) :
    (pixelOfIndex cfg k).1 < cfg.xpix ∧ (pixelOfIndex cfg k).2 < cfg.ypix := by
  unfold pixelCount at hk
  unfold pixelOfIndex
  cases cfg.imgOrder with
  | xMajor => exact ⟨Nat.div_lt_of_lt_mul (Nat.mul_comm .. ▸ hk), Nat.mod_lt k cfg.ypix_pos⟩
  | yMajor => exact ⟨Nat.mod_lt k cfg.xpix_pos, Nat.div_lt_of_lt_mul hk⟩

/-- Settles O10: `pixelOfIndex` is the inverse on both sides. -/
theorem pixelIndexIsBijection : Obligations.PixelIndexIsBijection := by
  refine fun cfg => ⟨fun x y => rfl, fun x y => pixelIndex_lt_pixelCount, ?_, ?_⟩
  · intro x y x' y' hx hy hx' hy' h
    have hxy := congrArg (pixelOfIndex cfg) h
    rwa [pixelOfIndex_pixelIndex hx hy, pixelOfIndex_pixelIndex hx' hy', Prod.mk.injEq] at hxy
  · intro k hk
    obtain ⟨hx, hy⟩ := pixelOfIndex_lt hk
    exact ⟨_, _, hx, hy, pixelIndex_pixelOfIndex cfg k⟩

/-! ### The bytes of a snapshot -/

@[simp] theorem counterBytes_length (n v : Nat) : (counterBytes n v).length = n := by
  induction n generalizing v with
  | zero => rfl
  | succ n ih => rw [counterBytes, List.length_cons, ih]

/-- Byte `j` of a counter is the counter shifted right by `8 * j`, cut to a byte. -/
theorem counterBytes_getElem? {n j : Nat} (hj : j < n) (v : Nat) :
    (counterBytes n v)[j]? = some (BitVec.ofNat 8 (v >>> (8 * j))) := by
  induction n generalizing v j with
  | zero => omega
  | succ n ih =>
    cases j with
    | zero => rfl
    | succ j =>
      have hshift : (v / 256) >>> (8 * j) = v >>> (8 * (j + 1)) := by
        rw [Nat.mul_succ, Nat.add_comm, Nat.shiftRight_add, Nat.shiftRight_eq_div_pow v 8]
      rw [counterBytes, List.getElem?_cons_succ, ih (by omega), hshift]

/-- Reading a counter's bytes gives the counter, where they are enough for it. -/
theorem counterOfBytes_counterBytes {n v : Nat} (h : v < 256 ^ n) : counterOfBytes (counterBytes n v) = v := by
  induction n generalizing v with
  | zero => simpa [counterBytes, counterOfBytes] using (Nat.lt_one_iff.1 h).symm
  | succ n ih =>
    have hv : v / 256 < 256 ^ n := Nat.div_lt_of_lt_mul (by rwa [← Nat.pow_succ'])
    rw [counterBytes, counterOfBytes, ih hv, BitVec.toNat_ofNat]
    exact Nat.mod_add_div v 256

/-- SNAP_BYTES bytes are enough for any counter. -/
theorem counterModulus_le_snapBytes (cfg : Config) : counterModulus cfg ≤ 256 ^ snapBytes cfg := by
  rw [counterModulus, show 256 = 2 ^ 8 from rfl, ← Nat.pow_mul]
  exact Nat.pow_le_pow_right Nat.two_pos (by unfold snapBytes; omega)

theorem serialise_cons (cfg : Config) (v : Nat) (data : List Nat) :
    serialise cfg (v :: data) = counterBytes (snapBytes cfg) v ++ serialise cfg data :=
  List.flatMap_cons

theorem serialise_length (cfg : Config) (data : List Nat) :
    (serialise cfg data).length = data.length * snapBytes cfg := by
  induction data with
  | nil => simp [serialise]
  | cons v data ih =>
    rw [serialise_cons, List.length_append, counterBytes_length, ih, List.length_cons, Nat.succ_mul, Nat.add_comm]

/-- Byte `j` of counter `k` stands at offset `k * SNAP_BYTES + j`: every counter before it takes SNAP_BYTES bytes. -/
theorem serialise_getElem? (cfg : Config) {data : List Nat} {k j : Nat} (hk : k < data.length)
    (hj : j < snapBytes cfg) :
    (serialise cfg data)[k * snapBytes cfg + j]? = some (BitVec.ofNat 8 (data.getD k 0 >>> (8 * j))) := by
  induction data generalizing k with
  | nil => cases hk
  | cons v data ih =>
    rw [serialise_cons]
    cases k with
    | zero =>
      rw [Nat.zero_mul, Nat.zero_add, List.getElem?_append_left (by rwa [counterBytes_length]),
        counterBytes_getElem? hj, List.getD_cons_zero]
    | succ k =>
      have hoff : (k + 1) * snapBytes cfg + j = snapBytes cfg + (k * snapBytes cfg + j) := by
        rw [Nat.succ_mul]; omega
      rw [hoff, List.getElem?_append_right (by simp), counterBytes_length, Nat.add_sub_cancel_left,
        ih (Nat.lt_of_succ_lt_succ hk), List.getD_cons_succ]

/-- Reading as many counters as were written gives them back. -/
theorem readCounters_serialise (cfg : Config) {data : List Nat} (hdata : ∀ v ∈ data, v < counterModulus cfg) :
    readCounters cfg data.length (serialise cfg data) = data := by
  induction data with
  | nil => rfl
  | cons v data ih =>
    obtain ⟨hv, hdata⟩ := List.forall_mem_cons.1 hdata
    rw [serialise_cons, List.length_cons, readCounters, List.take_left' (counterBytes_length _ _),
      List.drop_left' (counterBytes_length _ _), ih hdata,
      counterOfBytes_counterBytes (hv.trans_le (counterModulus_le_snapBytes cfg))]

/-- Settles O12: length, offsets and reading back, each by induction over the counters. -/
theorem snapshotBytesRoundTrip : Obligations.SnapshotBytesRoundTrip := by
  intro cfg data hlen hdata
  refine ⟨?_, fun k j hk hj => ⟨_, serialise_getElem? cfg (hlen ▸ hk) hj, BitVec.toNat_ofNat ..⟩, ?_⟩
  · rw [serialise_length, hlen]
    rfl
  · rw [deserialise, ← hlen, readCounters_serialise cfg hdata]

end Sys2Proof.Machine

/-! SUPPORT. The encoding of 30_encoding.md: fields and classes of a word, the round trips of decoder and encoder, the
fields PRE does not use, and the framing of a stream that follows the grammar. -/

namespace Sys2Proof

/-! ### Fields of a word -/

/-- A field is a shift and a remainder of the word (30_encoding.md R56). -/
theorem bits_toNat (w : Word) (lo len : Nat) : (bits w lo len).toNat = (w.toNat >>> lo) % 2 ^ len :=
  BitVec.extractLsb'_toNat ..

theorem bits_eq_iff {w : Word} {lo len : Nat} {v : BitVec len} :
    bits w lo len = v ↔ (w.toNat >>> lo) % 2 ^ len = v.toNat := by
  rw [← BitVec.toNat_inj, bits_toNat]

/-- Settles O6: each field is `bits` at its place, and `bits` is shift and remainder. -/
theorem fieldsAreShiftAndMask : Obligations.FieldsAreShiftAndMask := by
  intro w cfg
  simp [Machine.reduceCoords, decodeHeader, decodePhoton, bits_toNat]

/-- Settles O4: the decoder evaluated on the six words. -/
theorem sampleWordsDecode : Obligations.SampleWordsDecode :=
  ⟨by decide, by decide, by decide, by decide, by decide, by decide⟩

/-! ### The constructors of a word -/

theorem headerWord_toNat (sm ch : BitVec 8) (fr : BitVec 12) (ts : BitVec 36) :
    (headerWord sm ch fr ts).toNat = sm.toNat * 2 ^ 56 + ch.toNat * 2 ^ 48 + fr.toNat * 2 ^ 36 + ts.toNat := by
  rw [headerWord, BitVec.toNat_ofNat, Nat.mod_eq_of_lt]
  omega

theorem terminatorWord_toNat (r : BitVec 48) : (terminatorWord r).toNat = 0x7FFF000000000000 + r.toNat := by
  rw [terminatorWord, BitVec.toNat_ofNat, Nat.mod_eq_of_lt]
  omega

theorem photonWord_toNat (x y : BitVec 10) (lt : BitVec 9) (wv : BitVec 18) (bl : BitVec 17) :
    (photonWord x y lt wv bl).toNat =
      x.toNat * 2 ^ 54 + y.toNat * 2 ^ 44 + lt.toNat * 2 ^ 35 + wv.toNat * 2 ^ 17 + bl.toNat := by
  rw [photonWord, BitVec.toNat_ofNat, Nat.mod_eq_of_lt]
  omega

/-- The fields of format H lie beside one another, so each is read back. -/
@[simp] theorem decodeHeader_headerWord (sm ch : BitVec 8) (fr : BitVec 12) (ts : BitVec 36) :
    decodeHeader (headerWord sm ch fr ts) = ⟨sm, ch, fr, ts⟩ := by
  simp only [decodeHeader, Header.mk.injEq, bits_eq_iff, headerWord_toNat]
  omega

/-- The fields of format P lie beside one another, so each is read back. -/
@[simp] theorem decodePhoton_photonWord (x y : BitVec 10) (lt : BitVec 9) (wv : BitVec 18) (bl : BitVec 17) :
    decodePhoton (photonWord x y lt wv bl) = ⟨x, y, lt, wv, bl⟩ := by
  simp only [decodePhoton, Photon.mk.injEq, bits_eq_iff, photonWord_toNat]
  omega

@[simp] theorem bits_terminatorWord (r : BitVec 48) : bits (terminatorWord r) 0 48 = r := by
  rw [bits_eq_iff, terminatorWord_toNat]
  omega

/-- The fields of format H cover the word. -/
theorem headerWord_decodeHeader (w : Word) :
    headerWord (decodeHeader w).startMarker (decodeHeader w).channelId (decodeHeader w).frameNumber
      (decodeHeader w).timestamp = w := by
  apply BitVec.eq_of_toNat_eq
  simp only [headerWord_toNat, decodeHeader, bits_toNat]
  omega

/-- The fields of format P cover the word. -/
theorem photonWord_decodePhoton (w : Word) :
    photonWord (decodePhoton w).xCoord (decodePhoton w).yCoord (decodePhoton w).localTimestamp
      (decodePhoton w).wavelengthCode (decodePhoton w).baselineCode = w := by
  apply BitVec.eq_of_toNat_eq
  simp only [photonWord_toNat, decodePhoton, bits_toNat]
  omega

/-! ### The class of a word -/

theorem startHdr_toNat : startHdr.toNat = 0xFF := rfl
theorem startTerm_toNat : startTerm.toNat = 0x7F := rfl
theorem chanTerm_toNat : chanTerm.toNat = 0xFF := rfl

/-- The class is decided by the top 8 and the top 16 bits (30_encoding.md R54). -/
theorem classify_eq_ite (w : Word) :
    classify w =
      if w.toNat / 2 ^ 56 = 0xFF then .hdr else if w.toNat / 2 ^ 48 = 0x7FFF then .term else .photon := by
  have hhdr : bits w 56 8 = startHdr ↔ w.toNat / 2 ^ 56 = 0xFF := by
    rw [bits_eq_iff, startHdr_toNat]
    omega
  have hterm : bits w 56 8 = startTerm ∧ bits w 48 8 = chanTerm ↔ w.toNat / 2 ^ 48 = 0x7FFF := by
    rw [bits_eq_iff, bits_eq_iff, startTerm_toNat, chanTerm_toNat]
    omega
  simp only [classify, hhdr, hterm]

theorem classify_eq_hdr_iff {w : Word} : classify w = .hdr ↔ w.toNat / 2 ^ 56 = 0xFF := by
  rw [classify_eq_ite]
  split_ifs <;> simp_all

/-- No word of class HDR has the top 16 bits of a terminator. -/
theorem classify_eq_term_iff {w : Word} : classify w = .term ↔ w.toNat / 2 ^ 48 = 0x7FFF := by
  rw [classify_eq_ite]
  split_ifs <;> simp <;> omega

theorem classify_eq_photon_iff {w : Word} :
    classify w = .photon ↔ w.toNat / 2 ^ 56 ≠ 0xFF ∧ w.toNat / 2 ^ 48 ≠ 0x7FFF := by
  rw [classify_eq_ite]
  split_ifs <;> simp_all

theorem startMarker_eq_startHdr_iff {w : Word} : (decodeHeader w).startMarker = startHdr ↔ classify w = .hdr := by
  rw [classify_eq_hdr_iff, decodeHeader, bits_eq_iff, startHdr_toNat]
  omega

/-- A mask of the bits from `n` on compares the word's quotient by `2 ^ n`. -/
theorem and_highMask_eq_iff (w : Word) {n m : Nat} (hm : m * 2 ^ n < 2 ^ 64) :
    w &&& BitVec.allOnes 64 <<< n = BitVec.ofNat 64 m <<< n ↔ w.toNat / 2 ^ n = m := by
  have hm64 : m < 2 ^ 64 := (Nat.le_mul_of_pos_right m (Nat.two_pow_pos n)).trans_lt hm
  have hw : w.toNat / 2 ^ n * 2 ^ n < 2 ^ 64 := (Nat.div_mul_le_self ..).trans_lt w.isLt
  rw [← BitVec.shiftLeft_ushiftRight, ← BitVec.toNat_inj, BitVec.toNat_shiftLeft, BitVec.toNat_shiftLeft,
    BitVec.toNat_ushiftRight, BitVec.toNat_ofNat, Nat.shiftRight_eq_div_pow, Nat.shiftLeft_eq, Nat.shiftLeft_eq,
    Nat.mod_eq_of_lt hm64, Nat.mod_eq_of_lt hm, Nat.mod_eq_of_lt hw, Nat.mul_left_inj (Nat.two_pow_pos n).ne']

/-- Settles O7: masks and classes are both read off the top 8 and the top 16 bits. -/
theorem classesAreMaskAndMatch : Obligations.ClassesAreMaskAndMatch := by
  intro w
  have hhdr : w &&& (0xFF00000000000000 : Word) = 0xFF00000000000000 ↔ w.toNat / 2 ^ 56 = 0xFF :=
    and_highMask_eq_iff w (n := 56) (m := 0xFF) (by decide)
  have hterm : w &&& (0xFFFF000000000000 : Word) = 0x7FFF000000000000 ↔ w.toNat / 2 ^ 48 = 0x7FFF :=
    and_highMask_eq_iff w (n := 48) (m := 0x7FFF) (by decide)
  rw [ne_eq, ne_eq, hhdr, hterm]
  exact ⟨classify_eq_hdr_iff, classify_eq_term_iff, classify_eq_photon_iff⟩

/-! ### The class of a photon record -/

/-- The top 8 bits of a photon record are those of `x_coord`, the next 8 its low 2 and the top 6 of `y_coord`
(30_encoding.md R60). -/
theorem classify_photonWord (x y : BitVec 10) (lt : BitVec 9) (wv : BitVec 18) (bl : BitVec 17) :
    classify (photonWord x y lt wv bl) =
      if 1020 ≤ x.toNat then .hdr else if x.toNat = 511 ∧ 1008 ≤ y.toNat then .term else .photon := by
  have hhdr : (photonWord x y lt wv bl).toNat / 2 ^ 56 = 0xFF ↔ 1020 ≤ x.toNat := by
    rw [photonWord_toNat]
    omega
  have hterm : (photonWord x y lt wv bl).toNat / 2 ^ 48 = 0x7FFF ↔ x.toNat = 511 ∧ 1008 ≤ y.toNat := by
    rw [photonWord_toNat]
    omega
  simp only [classify_eq_ite, hhdr, hterm]

/-- Settles O8: the class of the record's word, by its top 8 and its top 16 bits. -/
theorem photonRecordsThatAlias : Obligations.PhotonRecordsThatAlias := classify_photonWord

/-- A photon record is well formed exactly where the scanner reads its word as one (30_encoding.md R60). -/
theorem wf_photon_iff (x y : BitVec 10) (lt : BitVec 9) (wv : BitVec 18) (bl : BitVec 17) :
    (Instr.photon x y lt wv bl).wf = true ↔ classify (photonWord x y lt wv bl) = .photon := by
  rw [classify_photonWord]
  simp only [Instr.wf, aliasesHeader, aliasesTerminator]
  split_ifs <;> simp <;> omega

/-- The coordinates of a word decide its class. -/
theorem classify_eq_of_coords_eq {v w : Word} (hx : (decodePhoton v).xCoord = (decodePhoton w).xCoord)
    (hy : (decodePhoton v).yCoord = (decodePhoton w).yCoord) : classify v = classify w := by
  have hv := congrArg classify (photonWord_decodePhoton v)
  have hw := congrArg classify (photonWord_decodePhoton w)
  rw [← hv, ← hw, classify_photonWord, classify_photonWord, hx, hy]

/-! ### The positional decoder -/

theorem decodeWord_first (w : Word) :
    decodeWord .first w = .hdr0 (decodeHeader w).startMarker (decodeHeader w).channelId (decodeHeader w).frameNumber
      (decodeHeader w).timestamp := rfl

theorem decodeWord_of_hdr {w : Word} (h : classify w = .hdr) :
    decodeWord .later w = .hdr (decodeHeader w).channelId (decodeHeader w).frameNumber (decodeHeader w).timestamp := by
  rw [decodeWord, h]
  rfl

theorem decodeWord_of_term {w : Word} (h : classify w = .term) : decodeWord .later w = .term (bits w 0 48) := by
  rw [decodeWord, h]

theorem decodeWord_of_photon {w : Word} (h : classify w = .photon) :
    decodeWord .later w = .photon (decodePhoton w).xCoord (decodePhoton w).yCoord (decodePhoton w).localTimestamp
      (decodePhoton w).wavelengthCode (decodePhoton w).baselineCode := by
  rw [decodeWord, h]
  rfl

theorem classify_headerWord_startHdr (ch : BitVec 8) (fr : BitVec 12) (ts : BitVec 36) :
    classify (headerWord startHdr ch fr ts) = .hdr := by
  rw [← startMarker_eq_startHdr_iff, decodeHeader_headerWord]

theorem classify_terminatorWord (r : BitVec 48) : classify (terminatorWord r) = .term := by
  rw [classify_eq_term_iff, terminatorWord_toNat]
  omega

/-- Settles O1: a case per row that has a word; the class of its word is the row, and its fields are read back. -/
theorem decodeOfEncodeIsSame : Obligations.DecodeOfEncodeIsSame := by
  intro i p w hwf hp hw
  cases i with
  | hdr0 sm ch fr ts => cases hp; cases hw; rw [decodeWord_first, decodeHeader_headerWord]
  | hdr ch fr ts =>
    cases hp; cases hw
    rw [decodeWord_of_hdr (classify_headerWord_startHdr ch fr ts), decodeHeader_headerWord]
  | term r => cases hp; cases hw; rw [decodeWord_of_term (classify_terminatorWord r), bits_terminatorWord]
  | photon x y lt wv bl =>
    cases hp; cases hw
    rw [decodeWord_of_photon ((wf_photon_iff x y lt wv bl).1 hwf), decodePhoton_photonWord]
  | reset | push | scan | tick | stop => cases hp

theorem headerWord_of_hdr {w : Word} (h : classify w = .hdr) :
    headerWord startHdr (decodeHeader w).channelId (decodeHeader w).frameNumber (decodeHeader w).timestamp = w := by
  rw [← startMarker_eq_startHdr_iff.2 h, headerWord_decodeHeader]

theorem terminatorWord_of_term {w : Word} (h : classify w = .term) : terminatorWord (bits w 0 48) = w := by
  rw [classify_eq_term_iff] at h
  apply BitVec.eq_of_toNat_eq
  rw [terminatorWord_toNat, bits_toNat]
  omega

/-- Settles O2: word 0 is a header whatever its bits, and a later word is of one of the three classes. -/
theorem encodeOfDecodeIsSame : Obligations.EncodeOfDecodeIsSame := by
  rintro (_ | _) w
  case first => exact ⟨congrArg some (headerWord_decodeHeader w), rfl, rfl⟩
  case later =>
    cases hc : classify w with
    | hdr => rw [decodeWord_of_hdr hc]; exact ⟨congrArg some (headerWord_of_hdr hc), rfl, rfl⟩
    | term => rw [decodeWord_of_term hc]; exact ⟨congrArg some (terminatorWord_of_term hc), rfl, rfl⟩
    | photon =>
      rw [decodeWord_of_photon hc]
      have hwf := (wf_photon_iff ..).2 ((photonWord_decodePhoton w).symm ▸ hc)
      exact ⟨congrArg some (photonWord_decodePhoton w), hwf, rfl⟩

/-! ### The bytes of a word -/

/-- A word is its bytes, the most significant first: they are the digits of its value in base 256. -/
theorem be64_of_bits (w : Word) :
    be64 (bits w 56 8) (bits w 48 8) (bits w 40 8) (bits w 32 8) (bits w 24 8) (bits w 16 8) (bits w 8 8)
      (bits w 0 8) = w := by
  apply BitVec.eq_of_toNat_eq
  have hdigits : w.toNat % 256 ^ 8 = w.toNat := Nat.mod_eq_of_lt w.isLt
  simp only [Nat.mod_pow_succ, Nat.pow_zero, Nat.mod_one] at hdigits
  simp only [be64_toNat, bits_toNat, Nat.shiftRight_eq_div_pow]
  norm_num at hdigits ⊢
  linarith

theorem takeWord_wordBytes_append (w : Word) (tail : List Byte) : takeWord (wordBytes w ++ tail) = some (w, tail) := by
  simp only [wordBytes, List.cons_append, List.nil_append, takeWord, be64_of_bits]

/-- The bytes of a word, at the head of any bytes, decode to what the word is. -/
theorem decode_wordBytes_append (p : WordPos) (w : Word) (tail : List Byte) :
    decode p (wordBytes w ++ tail) = .ok (decodeWord p w, tail) := by
  rw [decode, takeWord_wordBytes_append]

/-- Settles O3: the decoder takes the first word, and there is none in fewer than 8 bytes. -/
theorem decodeReadsWordBytes : Obligations.DecodeReadsWordBytes :=
  ⟨decode_wordBytes_append, fun p s hs => by rw [decode, takeWord_eq_none_iff.2 hs]⟩

/-- The bytes of a word after `i` words are word `i`. -/
theorem wordAt_append_wordBytes {s : List Byte} {i : Nat} (hs : s.length = 8 * i) (w : Word) :
    wordAt (s ++ wordBytes w) i = some w := by
  have htake : takeWord (wordBytes w) = some (w, []) := by simpa using takeWord_wordBytes_append w []
  rw [wordAt, List.drop_left' hs, htake]
  rfl

/-- The table's 64 bits of a row are read as that word, at index 1 or later (log entry 10). -/
theorem decodeTableWord_eq (w : Nat) :
    decodeTableWord 64 w = some (decodeWord .later (BitVec.ofNat 64 (w % 2 ^ 64))) := by
  have hdec := decode_wordBytes_append .later (BitVec.ofNat 64 (w % 2 ^ 64)) []
  rw [List.append_nil] at hdec
  rw [decodeTableWord, if_neg (by decide), hdec]

/-! ### Words of a part of the bytes -/

/-- Cutting at a word index keeps exactly the words before it. -/
theorem wordAt_take_words (s : List Byte) (n i : Nat) :
    wordAt (s.take (8 * n)) i = if i < n then wordAt s i else none := by
  cases h : wordAt (s.take (8 * n)) i with
  | some w =>
    have hlen := wordAt_le h
    rw [List.length_take] at hlen
    rw [if_pos (by omega), Machine.wordAt_take h]
  | none =>
    rw [wordAt_eq_none_iff, List.length_take] at h
    split
    · exact (wordAt_eq_none_iff.2 (by omega)).symm
    · rfl

theorem words_take (s : List Byte) (n : Nat) : words (s.take (8 * n)) = (words s).take n := by
  apply List.ext_getElem?
  intro i
  rw [words_getElem?, wordAt_take_words, List.getElem?_take, words_getElem?]

theorem words_drop (s : List Byte) (n : Nat) : words (s.drop (8 * n)) = (words s).drop n := by
  apply List.ext_getElem?
  intro i
  rw [words_getElem?, wordAt_drop, List.getElem?_drop, words_getElem?]

end Sys2Proof

namespace Sys2Proof.Machine

/-! ### A placed word -/

theorem State.when_congr {s : State} (requires : Bool) {act act' : State → Host.Outcome State Fault Refusal}
    (h : act s = act' s) : s.when requires act = s.when requires act' := by
  rw [State.when, State.when, h]

/-- SCAN of a whole word is the meaning of the instruction the word decodes to (41_reassembly.md R80). -/
theorem exec_scan_eq_exec_decodeWord {s : State} {w : Word} (hw : wordAt s.buf s.si = some w) :
    exec .scan s = exec (decodeWord .later w) s := by
  have hex := State.examine_eq hw
  cases hc : classify w with
  | hdr => rw [decodeWord_of_hdr hc]; exact State.when_congr _ (by rw [hex, hc])
  | term => rw [decodeWord_of_term hc]; exact State.when_congr _ (by rw [hex, hc])
  | photon => rw [decodeWord_of_photon hc]; exact State.when_congr _ (by rw [hex, hc])

theorem step_eq_exec_scan {s : State} (h : s.sched = []) : step s = exec .scan s := by
  rw [step, State.fetch_nil h]

/-- The word placed is the word at `si`: the bytes before it fill `si` words. -/
theorem State.wordAt_placeWord (s : State) (w : Word) : wordAt (s.placeWord w).buf (s.placeWord w).si = some w := by
  refine wordAt_append_wordBytes ?_ w
  rw [List.length_append, List.length_take, List.length_replicate]
  show _ = 8 * s.si
  omega

/-- Settles O41: nothing is scheduled, so the step is the SCAN that meets the word placed. -/
theorem placedWordIsRun : Obligations.PlacedWordIsRun := by
  intro s w _
  refine ⟨_, decodeTableWord_eq w, ?_⟩
  rw [step_eq_exec_scan rfl]
  exact exec_scan_eq_exec_decodeWord (s.wordAt_placeWord _)

/-! ### The fields PRE uses -/

/-- What PRE reads of a word at index 1 or later (30_encoding.md R61). -/
def photonUse (w : Word) : BitVec 10 × BitVec 10 := ((decodePhoton w).xCoord, (decodePhoton w).yCoord)

/-- What PRE reads of word 0 (30_encoding.md R61). -/
def headerUse (w : Word) : BitVec 8 × BitVec 12 := ((decodeHeader w).channelId, (decodeHeader w).frameNumber)

/-- Two byte sequences of one length that differ, in their whole words, only in fields PRE does not use. -/
structure SameUse (b c : List Byte) : Prop where
  length_eq : b.length = c.length
  photon_eq : ∀ i, 1 ≤ i → (wordAt b i).map photonUse = (wordAt c i).map photonUse
  header_eq : (wordAt b 0).map headerUse = (wordAt c 0).map headerUse

theorem SameUse.take {b c : List Byte} (h : SameUse b c) (n : Nat) : SameUse (b.take (8 * n)) (c.take (8 * n)) := by
  obtain ⟨hlen, hph, hhd⟩ := h
  refine ⟨by rw [List.length_take, List.length_take, hlen], fun i hi => ?_, ?_⟩
  · rw [wordAt_take_words, wordAt_take_words]
    split
    · exact hph i hi
    · rfl
  · rw [wordAt_take_words, wordAt_take_words]
    split
    · exact hhd
    · rfl

/-- The word at an index from 1 on has the same class in both. -/
theorem SameUse.wordAt_classify {b c : List Byte} (h : SameUse b c) {i : Nat} (hi : 1 ≤ i) {v : Word}
    (hv : wordAt c i = some v) : ∃ v', wordAt b i = some v' ∧ classify v' = classify v := by
  have hmap := h.photon_eq i hi
  rw [hv, Option.map_some, Option.map_eq_some_iff] at hmap
  obtain ⟨v', hv', huse⟩ := hmap
  obtain ⟨hx, hy⟩ := Prod.mk.inj huse
  exact ⟨v', hv', classify_eq_of_coords_eq hx hy⟩

theorem SameUse.words_cons {b c : List Byte} (h : SameUse b c) {w : Word} {ws : List Word} (hw : words c = w :: ws) :
    ∃ w' ws', words b = w' :: ws' ∧ headerUse w' = headerUse w ∧ ws'.map photonUse = ws.map photonUse := by
  have hlen : (words b).length = (words c).length := by rw [words_length, words_length, h.length_eq]
  obtain ⟨w', ws', hw'⟩ : ∃ w' ws', words b = w' :: ws' :=
    List.exists_cons_of_length_eq_add_one (hlen.trans (by rw [hw, List.length_cons]))
  refine ⟨w', ws', hw', ?_, List.ext_getElem? fun i => ?_⟩
  · have hhd := h.header_eq
    rw [← words_getElem?, ← words_getElem?, hw, hw'] at hhd
    exact Option.some.inj hhd
  · have hph := h.photon_eq (i + 1) (Nat.succ_pos i)
    rw [← words_getElem?, ← words_getElem?, hw, hw'] at hph
    simpa using hph

theorem map_reduceCoords_congr (cfg : Config) {ws ws' : List Word} (h : ws'.map photonUse = ws.map photonUse) :
    (ws'.map fun v => reduceCoords cfg (decodePhoton v)) = ws.map fun v => reduceCoords cfg (decodePhoton v) := by
  have hfactor (us : List Word) : (us.map fun v => reduceCoords cfg (decodePhoton v)) =
      (us.map photonUse).map fun xy => (xy.1.toNat % cfg.xpix, xy.2.toNat % cfg.ypix) := by
    rw [List.map_map]
    rfl
  rw [hfactor, hfactor, h]

/-! ### RECORD reads neither the buffer nor the packets emitted -/

/-- `s` with other bytes in the buffer and on pkt_out. -/
def State.withBytes (s : State) (b : List Byte) (out : List (List Byte)) : State := { s with buf := b, pktOut := out }

theorem State.checkOversize_withBytes (s : State) (b : List Byte) (out : List (List Byte)) (n : Nat) :
    (s.withBytes b out).checkOversize n = (s.checkOversize n).withBytes b out := by
  unfold State.checkOversize
  split <;> rfl

theorem State.expected_withBytes (s : State) (b : List Byte) (out : List (List Byte)) (c : BitVec 8) :
    (s.withBytes b out).expected c = s.expected c := rfl

theorem State.checkSeq_withBytes (s : State) (b : List Byte) (out : List (List Byte)) (c : BitVec 8)
    (o : BitVec 12) : (s.withBytes b out).checkSeq c o = (s.checkSeq c o).withBytes b out := by
  rw [State.checkSeq, State.checkSeq, State.expected_withBytes]
  split <;> rfl

theorem State.record_withBytes (s : State) (b : List Byte) (out : List (List Byte)) (h : Header)
    (xys : List (Nat × Nat)) : (s.withBytes b out).record h xys = (s.record h xys).withBytes b out := by
  simp only [State.record, State.checkSeq_withBytes]
  rfl

/-- RECORD reads the channel and the frame number of a header, and nothing else of it. -/
theorem State.record_congr (s : State) {h h' : Header} (hc : h'.channelId = h.channelId)
    (hf : h'.frameNumber = h.frameNumber) (xys : List (Nat × Nat)) : s.record h' xys = s.record h xys := by
  simp only [State.record, hc, hf]

/-- A boundary met with other bytes of the same use leaves the same state but for the bytes. -/
theorem State.afterBoundary_of_sameUse {s : State} {b : List Byte} (hlen : b.length = s.buf.length) (n : Nat)
    {w w' : Word} {ws ws' : List Word} (hw : headerUse w' = headerUse w) (hws : ws'.map photonUse = ws.map photonUse) :
    ({ s with buf := b } : State).afterBoundary n w' ws' =
      (s.afterBoundary n w ws).withBytes (b.drop n) (s.pktOut ++ [b.take (8 * s.si)]) := by
  obtain ⟨hc, hf⟩ := Prod.mk.inj hw
  rw [State.afterBoundary, State.afterBoundary, ← State.record_withBytes, ← State.checkOversize_withBytes,
    State.record_congr _ hc hf, map_reduceCoords_congr _ hws, List.length_take, List.length_take, hlen]
  rfl

/-! ### SCAN of bytes of the same use -/

/-- The transitions of SCAN are what it performs. -/
theorem MoveStep.exec_scan {s t : State} (h : MoveStep .scan s t) : exec .scan s = .next t := by
  cases h with
  | noStep hs => exact State.when_false hs _
  | advance hr hv hc =>
    refine (State.when_true (State.scanEnabled_of_wordAt hr hv) _).trans ?_
    rw [State.examine_eq hv, hc]
    rfl
  | boundary hr hv hn hw =>
    have hcut (n : Nat) := (s.cut_eq n).trans (State.deliver_eq _ hw)
    refine (State.when_true (State.scanEnabled_of_wordAt hr hv) _).trans ?_
    rw [State.examine_eq hv]
    rcases hn with ⟨hc, rfl⟩ | ⟨hc, rfl⟩
    · rw [hc]; exact hcut _
    · rw [hc]; exact hcut _

/-- SCAN takes the same transition on bytes of the same use, and the lengths stay the same. -/
theorem MoveStep.scan_of_sameUse {s t : State} {b : List Byte} (h : MoveStep .scan s t) (hb : SameUse b s.buf)
    (hsi : 1 ≤ s.si) :
    ∃ b' out, MoveStep .scan { s with buf := b } (t.withBytes b' out) ∧ b'.length = t.buf.length ∧
      out.map List.length = t.pktOut.map List.length := by
  cases h with
  | noStep hs =>
    refine ⟨b, s.pktOut, .noStep ?_, hb.length_eq, rfl⟩
    simpa [hasStep, Move.toInstr, State.scanEnabled, State.running, State.wordArrived, hb.length_eq] using hs
  | advance hr hv hc =>
    obtain ⟨v', hv', hc'⟩ := hb.wordAt_classify hsi hv
    exact ⟨b, s.pktOut, .advance (s := { s with buf := b }) hr hv' (hc'.trans hc), hb.length_eq, rfl⟩
  | @boundary _ v w ws n hr hv hn hw =>
    obtain ⟨v', hv', hc'⟩ := hb.wordAt_classify hsi hv
    obtain ⟨w', ws', hw', huse, huses⟩ := (hb.take s.si).words_cons hw
    refine ⟨b.drop n, s.pktOut ++ [b.take (8 * s.si)], ?_, by simp [hb.length_eq], by simp [hb.length_eq]⟩
    rw [← State.afterBoundary_of_sameUse hb.length_eq n huse huses]
    exact .boundary (s := { s with buf := b }) hr hv' (hc' ▸ hn) hw'

/-- Settles O31: SCAN's transitions one by one. -/
theorem opaqueFieldsHaveNoEffect : Obligations.OpaqueFieldsHaveNoEffect := by
  intro s t b hlen hph hhd hsi hexec
  obtain ⟨b', out, hstep, hlen', hout⟩ := (MoveStep.of_scan hexec).scan_of_sameUse ⟨hlen, hph, hhd⟩ hsi
  exact ⟨_, hstep.exec_scan, rfl, hlen', hout⟩

/-! ### Boundaries -/

theorem boundaryClass_of_wordAt {b : List Byte} {i : Nat} {v : Word} (hv : wordAt b i = some v) :
    boundaryClass b i = if classify v = .photon then none else some (classify v) := by
  rw [boundaryClass, hv, Option.map_some]
  cases classify v <;> rfl

theorem boundaryClass_of_no_word {b : List Byte} {i : Nat} (hv : wordAt b i = none) : boundaryClass b i = none := by
  rw [boundaryClass, hv]
  rfl

theorem boundaryClass_isSome_iff {b : List Byte} {i : Nat} :
    (boundaryClass b i).isSome = true ↔ ∃ v, wordAt b i = some v ∧ classify v ≠ .photon := by
  cases hv : wordAt b i with
  | none => simp [boundaryClass_of_no_word hv]
  | some v => simp [boundaryClass_of_wordAt hv]

theorem removed_of_hdr {b : List Byte} {i : Nat} {v : Word} (hv : wordAt b i = some v) (hc : classify v = .hdr) :
    removed b i = 8 * i := by
  simp [removed, boundaryClass_of_wordAt hv, hc]

theorem removed_of_term {b : List Byte} {i : Nat} {v : Word} (hv : wordAt b i = some v) (hc : classify v = .term) :
    removed b i = 8 * (i + 1) := by
  simp [removed, boundaryClass_of_wordAt hv, hc, Nat.mul_succ]

/-- The boundary of a byte sequence is at a word from 1 on that is no photon, and only photons stand between word 0 and
it (41_reassembly.md R89). -/
theorem boundary_eq_some {b : List Byte} {i : Nat} (h : boundary b = some i) :
    1 ≤ i ∧ (∃ v, wordAt b i = some v ∧ classify v ≠ .photon) ∧
      ∀ j, 1 ≤ j → j < i → ∀ v, wordAt b j = some v → classify v = .photon := by
  rw [boundary, List.find?_filter, List.find?_range_eq_some] at h
  obtain ⟨hi, -, hleast⟩ := h
  obtain ⟨h1, hb⟩ : 1 ≤ i ∧ (boundaryClass b i).isSome = true := by simpa using hi
  refine ⟨h1, boundaryClass_isSome_iff.1 hb, fun j hj1 hj v hv => ?_⟩
  by_contra hne
  have hsome := boundaryClass_isSome_iff.2 ⟨v, hv, hne⟩
  simpa [hj1, hsome] using hleast j hj

theorem exists_words_eq_cons_of_boundary {b : List Byte} {i : Nat} (h : boundary b = some i) :
    ∃ w ws, words b = w :: ws := by
  obtain ⟨-, ⟨v, hv, -⟩, -⟩ := boundary_eq_some h
  exact List.exists_cons_of_ne_nil (words_ne_nil (by have := wordAt_le hv; omega))

/-! ### The framing of a stream that follows the grammar -/

/-- Where no unit is open, a word opens one: it is a header (30_encoding.md R57). -/
theorem followsGrammar_false_cons {w : Word} {ws : List Word} :
    followsGrammar false (w :: ws) = true ↔ classify w = .hdr ∧ followsGrammar true ws = true := by
  rw [followsGrammar, Bool.and_eq_true, decide_eq_true_iff, ← startMarker_eq_startHdr_iff]
  rfl

/-- Photon words leave the unit open. -/
theorem followsGrammar_true_drop {ws : List Word} {n : Nat} (h : followsGrammar true ws = true)
    (hph : ∀ j < n, ∀ v, ws[j]? = some v → classify v = .photon) : followsGrammar true (ws.drop n) = true := by
  induction n generalizing ws with
  | zero => exact h
  | succ n ih =>
    cases ws with
    | nil => rfl
    | cons w ws =>
      have hw : classify w = .photon := hph 0 (Nat.succ_pos n) w rfl
      simp only [followsGrammar, hw] at h
      exact ih h fun j hj v hv => hph (j + 1) (Nat.succ_lt_succ hj) v hv

/-- What a boundary leaves of a stream that follows the grammar follows it too: it begins with the boundary's own
header, or behind a terminator with the next one. -/
theorem followsGrammar_after_boundary {b : List Byte} {i : Nat} (h : followsGrammar false (words b) = true)
    (hb : boundary b = some i) : followsGrammar false (words (slice b (removed b i) b.length)) = true := by
  obtain ⟨h1, ⟨v, hv, hne⟩, hph⟩ := boundary_eq_some hb
  obtain ⟨k, rfl⟩ := Nat.exists_eq_add_of_le' h1
  obtain ⟨w, ws, hw⟩ := exists_words_eq_cons_of_boundary hb
  have hget (j : Nat) : ws[j]? = wordAt b (j + 1) := by rw [← words_getElem?, hw, List.getElem?_cons_succ]
  have hsplit : ws.drop k = v :: ws.drop (k + 1) := List.drop_eq_getElem?_toList_append.trans (by rw [hget, hv]; rfl)
  rw [hw] at h
  have hopen := followsGrammar_true_drop (n := k) (followsGrammar_false_cons.1 h).2
    fun j hj v hv => hph (j + 1) (Nat.succ_pos j) (Nat.succ_lt_succ hj) v (hget j ▸ hv)
  rw [hsplit] at hopen
  rw [slice_length]
  cases hc : classify v with
  | hdr =>
    rw [removed_of_hdr hv hc, words_drop, hw, List.drop_succ_cons, hsplit]
    exact followsGrammar_false_cons.2 ⟨hc, by simpa [followsGrammar, hc] using hopen⟩
  | term =>
    rw [removed_of_term hv hc, words_drop, hw, List.drop_succ_cons]
    simpa [followsGrammar, hc] using hopen
  | photon => exact absurd hc hne

/-- In a stream that follows the grammar, word 0 is a header. -/
theorem startMarker_of_followsGrammar {b : List Byte} {w : Word} {ws : List Word}
    (h : followsGrammar false (words b) = true) (hw : words b = w :: ws) : (decodeHeader w).startMarker = startHdr := by
  rw [hw, followsGrammar_false_cons] at h
  exact startMarker_eq_startHdr_iff.2 h.1

/-- The packet in front of a boundary has the stream's word 0. -/
theorem packetHeader_of_boundary {b : List Byte} {i : Nat} (h : followsGrammar false (words b) = true)
    (hb : boundary b = some i) : (packetHeader (slice b 0 (8 * i))).map Header.startMarker = some startHdr := by
  obtain ⟨h1, -⟩ := boundary_eq_some hb
  obtain ⟨k, rfl⟩ := Nat.exists_eq_add_of_le' h1
  obtain ⟨w, ws, hw⟩ := exists_words_eq_cons_of_boundary hb
  rw [packetHeader, slice_zero, words_take, hw]
  exact congrArg some (startMarker_of_followsGrammar h hw)

theorem packetsFuel_keep_framing {fuel : Nat} {b p : List Byte} (h : followsGrammar false (words b) = true)
    (hp : p ∈ packetsFuel fuel b) : (packetHeader p).map Header.startMarker = some startHdr := by
  induction fuel generalizing b with
  | zero => cases hp
  | succ fuel ih =>
    rw [packetsFuel] at hp
    cases hb : boundary b with
    | none => rw [hb] at hp; cases hp
    | some i =>
      rw [hb] at hp
      rcases List.mem_cons.1 hp with rfl | hp
      · exact packetHeader_of_boundary h hb
      · exact ih (followsGrammar_after_boundary h hb) hp

theorem followsGrammar_restFuel {fuel : Nat} {b : List Byte} (h : followsGrammar false (words b) = true) :
    followsGrammar false (words (restFuel fuel b)) = true := by
  induction fuel generalizing b with
  | zero => exact h
  | succ fuel ih =>
    rw [restFuel]
    cases hb : boundary b with
    | none => exact h
    | some i => exact ih (followsGrammar_after_boundary h hb)

/-- Settles O56: each boundary leaves a stream that follows the grammar, so every packet and the carry-over begin with a
header. -/
theorem grammaticalStreamKeepsFraming : Obligations.GrammaticalStreamKeepsFraming := by
  refine fun b h => ⟨fun p => packetsFuel_keep_framing h, fun w hw => ?_⟩
  rw [← words_getElem?, ← List.head?_eq_getElem?] at hw
  obtain ⟨ws, hws⟩ := List.head?_eq_some_iff.1 hw
  exact startMarker_of_followsGrammar (followsGrammar_restFuel h) hws

end Sys2Proof.Machine

/-! SUPPORT. PUSH of 40_ingress.md: the empty chunk, and that an append commutes with SCAN. -/

namespace Sys2Proof.Machine

/-- Settles O18: the empty chunk fits where the buffer does, and appending it leaves the buffer. -/
theorem pushEmptyChangesNothing : Obligations.PushEmptyChangesNothing := by
  intro s hr hcap
  rw [pushAppendsChunk [] s hr hcap, List.append_nil]

/-! ### An append before or after DELIVER, a cut and SCAN -/

/-- Append the bytes `c` in the state an operation leaves; a fault or a refusal stays as it is. -/
def appendAfter (c : List Byte) : Host.Outcome State Fault Refusal → Host.Outcome State Fault Refusal
  | .next t => .next (t.append c)
  | .fault f => .fault f
  | .refused r => .refused r

theorem State.deliver_append (s : State) (c p : List Byte) :
    (s.append c).deliver p = appendAfter c (s.deliver p) := by
  rw [State.append, State.deliver_withBuf]
  rcases s.deliver_cases p with ⟨-, hf⟩ | ⟨w, ws, -, hn⟩
  · rw [hf]
    rfl
  · rw [hn]
    simp [appendAfter, State.append]

/-- A cut takes bytes from the front of the buffer, before the bytes appended. -/
theorem State.cut_append {s : State} {n : Nat} (hsi : 8 * s.si ≤ s.buf.length) (hn : n ≤ s.buf.length)
    (c : List Byte) : (s.append c).cut n = appendAfter c (s.cut n) := by
  rw [State.cut_eq, State.cut_eq, ← State.deliver_append, State.append_buf, State.append_si,
    List.take_append_of_le_length hsi, List.drop_append_of_le_length hn]
  rfl

/-- The word SCAN examines is the same before and after the append, and so is its outcome. -/
theorem State.examine_append {s : State} {v : Word} (hv : wordAt s.buf s.si = some v) (c : List Byte) :
    (s.append c).examine = appendAfter c s.examine := by
  have hlen := wordAt_le hv
  rw [State.examine_eq hv, State.examine_eq (s := s.append c) (wordAt_append hv c)]
  cases classify v with
  | photon => rfl
  | hdr => exact State.cut_append (n := 8 * s.si) (by omega) (by omega) c
  | term => exact State.cut_append (n := 8 * s.si + 8) (by omega) (by omega) c

theorem exec_scan_append {s : State} (he : s.scanEnabled = true) (c : List Byte) :
    exec .scan (s.append c) = appendAfter c (exec .scan s) := by
  obtain ⟨hr, hlen⟩ := s.scanEnabled_iff.1 he
  obtain ⟨v, hv⟩ := wordAt_isSome hlen
  have he' : (s.append c).scanEnabled = true :=
    State.scanEnabled_of_wordAt (s := s.append c) hr (wordAt_append hv c)
  exact (State.when_true he' _).trans ((State.examine_append hv c).trans
    (congrArg (appendAfter c) (State.when_true he _).symm))

/-! ### Runs of a PUSH and a SCAN -/

theorem perform_singleton (m : Move) (s : State) : perform [m] s = exec m.toInstr s := by
  simp only [perform]
  cases exec m.toInstr s <;> rfl

theorem perform_cons_of_next {m : Move} {s t : State} (h : exec m.toInstr s = .next t) (ms : List Move) :
    perform (m :: ms) s = perform ms t := by
  rw [perform, h]

/-- With BUF_CAP infinite PUSH in RUN is the append, whatever the chunk. -/
theorem exec_push_of_unbounded {s : State} (hr : s.mode = .run) (hcap : s.cfg.bufCap = none) (c : List Byte) :
    exec (.push c) s = .next (s.append c) :=
  execPush_eq_append hr (State.wouldOverflow_eq_false (by simp [hcap]))

/-- With BUF_CAP infinite a PUSH after a SCAN appends to whatever state the SCAN leaves, since that is in RUN. -/
theorem perform_scan_push {s : State} (hr : s.mode = .run) (hcap : s.cfg.bufCap = none) (c : List Byte) :
    perform [.scan, .push c] s = appendAfter c (exec .scan s) := by
  cases h : exec .scan s with
  | next t =>
    have hrt : t.mode = .run := (MoveStep.of_scan h).keeps_run rfl hr hcap
    have hcapt : t.cfg.bufCap = none := by rw [exec_keeps_cfg h, hcap]
    rw [perform_cons_of_next (m := .scan) h, perform_singleton]
    exact exec_push_of_unbounded hrt hcapt c
  | fault | refused => rw [perform, Move.toInstr, h]; rfl

/-- Settles O55: either way the state is the one SCAN leaves, with the chunk appended. -/
theorem pushAndScanCommute : Obligations.PushAndScanCommute := by
  intro s c hcap he
  have hr := (s.scanEnabled_iff.1 he).1
  calc perform [.push c, .scan] s
      = perform [.scan] (s.append c) := perform_cons_of_next (m := .push c) (exec_push_of_unbounded hr hcap c) [.scan]
    _ = exec .scan (s.append c) := perform_singleton .scan (s.append c)
    _ = appendAfter c (exec .scan s) := exec_scan_append he c
    _ = perform [.scan, .push c] s := (perform_scan_push hr hcap c).symm

end Sys2Proof.Machine

/-! SUPPORT. The stream of 41_reassembly.md R89: its packets and carry-over as a relation, where its boundary is, and the
stream law that every move but RESET keeps. -/

namespace Sys2Proof.Machine

/-! ### The packets and the carry-over of a byte sequence -/

/-- Cutting `b` at its boundaries, one after another, gives the packets `ps` and leaves `r` (41_reassembly.md R89): the
recursion of `packets` and `rest` in one relation, with no fuel. -/
inductive Splits : List Byte → List (List Byte) → List Byte → Prop where
  | done {b : List Byte} (hb : boundary b = none) : Splits b [] b
  | cut {b : List Byte} {i : Nat} {ps : List (List Byte)} {r : List Byte} (hb : boundary b = some i)
      (h : Splits (b.drop (removed b i)) ps r) : Splits b (b.take (8 * i) :: ps) r

/-- A boundary removes at least word 0, and no more than there is. -/
theorem removed_bounds {b : List Byte} {i : Nat} (hb : boundary b = some i) :
    8 ≤ removed b i ∧ removed b i ≤ b.length := by
  obtain ⟨h1, ⟨v, hv, hne⟩, -⟩ := boundary_eq_some hb
  have hlen := wordAt_le hv
  cases hc : classify v with
  | hdr => rw [removed_of_hdr hv hc]; omega
  | term => rw [removed_of_term hv hc]; omega
  | photon => exact absurd hc hne

theorem boundary_nil : boundary [] = none := rfl

/-- What is left of `b` at a boundary is shorter than `b`. -/
theorem length_drop_removed_le {b : List Byte} {i fuel : Nat} (hb : boundary b = some i) (hf : b.length ≤ fuel + 1) :
    (b.drop (removed b i)).length ≤ fuel := by
  have := removed_bounds hb
  rw [List.length_drop]
  omega

/-- As much fuel as there are bytes is enough. -/
theorem splits_fuel {fuel : Nat} {b : List Byte} (hf : b.length ≤ fuel) :
    Splits b (packetsFuel fuel b) (restFuel fuel b) := by
  induction fuel generalizing b with
  | zero =>
    obtain rfl := List.eq_nil_of_length_eq_zero (Nat.le_zero.1 hf)
    exact .done boundary_nil
  | succ fuel ih =>
    rw [packetsFuel, restFuel]
    cases hb : boundary b with
    | none => exact .done hb
    | some i =>
      simp only [slice_zero, slice_length]
      exact .cut hb (ih (length_drop_removed_le hb hf))

theorem splits_packets_rest (b : List Byte) : Splits b (packets b) (rest b) := splits_fuel le_rfl

theorem Splits.unique {b r r' : List Byte} {ps ps' : List (List Byte)} (h : Splits b ps r) (h' : Splits b ps' r') :
    ps = ps' ∧ r = r' := by
  induction h generalizing ps' with
  | done hb =>
    cases h' with
    | done => exact ⟨rfl, rfl⟩
    | cut hb' => cases hb.symm.trans hb'
  | cut hb _ ih =>
    cases h' with
    | done hb' => cases hb.symm.trans hb'
    | cut hb' h' =>
      cases hb.symm.trans hb'
      obtain ⟨rfl, rfl⟩ := ih h'
      exact ⟨rfl, rfl⟩

/-- The relation is the two functions. -/
theorem Splits.eq_packets_rest {b r : List Byte} {ps : List (List Byte)} (h : Splits b ps r) :
    packets b = ps ∧ rest b = r :=
  (splits_packets_rest b).unique h

/-! ### Where the boundary is -/

/-- The boundary is the least word index from 1 on whose word is no photon (41_reassembly.md R89). -/
theorem boundary_eq_some_of_least {b : List Byte} {i : Nat} {v : Word} (h1 : 1 ≤ i) (hv : wordAt b i = some v)
    (hc : classify v ≠ .photon) (hleast : ∀ j, 1 ≤ j → j < i → ∀ u, wordAt b j = some u → classify u = .photon) :
    boundary b = some i := by
  have hlen := wordAt_le hv
  rw [boundary, List.find?_filter, List.find?_range_eq_some]
  refine ⟨by simpa [h1] using boundaryClass_isSome_iff.2 ⟨v, hv, hc⟩, List.mem_range.2 (by omega), fun j hj => ?_⟩
  rw [Bool.not_eq_true', decide_eq_false_iff_not, decide_eq_true_iff]
  rintro ⟨hj1, hsome⟩
  obtain ⟨u, hu, hne⟩ := boundaryClass_isSome_iff.1 hsome
  exact hne (hleast j hj1 hj u hu)

/-- Where every whole word from 1 on is a photon there is no boundary. -/
theorem boundary_eq_none {b : List Byte} (h : ∀ j, 1 ≤ j → ∀ u, wordAt b j = some u → classify u = .photon) :
    boundary b = none := by
  cases hb : boundary b with
  | none => rfl
  | some i =>
    obtain ⟨h1, ⟨v, hv, hne⟩, -⟩ := boundary_eq_some hb
    exact absurd (h i h1 v hv) hne

/-- Bytes that arrive later do not move a boundary: it is decided by words that are there (20_memory.md R39). -/
theorem boundary_append {b : List Byte} {i : Nat} (hb : boundary b = some i) (c : List Byte) :
    boundary (b ++ c) = some i := by
  obtain ⟨h1, ⟨v, hv, hne⟩, hleast⟩ := boundary_eq_some hb
  refine boundary_eq_some_of_least h1 (wordAt_append hv c) hne fun j hj1 hj u hu => ?_
  obtain ⟨u', hu'⟩ := wordAt_isSome (s := b) (i := j) (by have := wordAt_le hv; omega)
  cases hu.symm.trans (wordAt_append hu' c)
  exact hleast j hj1 hj _ hu'

theorem removed_append {b : List Byte} {i : Nat} (hb : boundary b = some i) (c : List Byte) :
    removed (b ++ c) i = removed b i := by
  obtain ⟨-, ⟨v, hv, -⟩, -⟩ := boundary_eq_some hb
  rw [removed, removed, boundaryClass_of_wordAt hv, boundaryClass_of_wordAt (wordAt_append hv c)]

/-! ### Bytes that arrive later -/

/-- Bytes appended are cut together with what the earlier bytes left (41_reassembly.md R89, R90). -/
theorem Splits.append {b c r r' : List Byte} {ps ps' : List (List Byte)} (h : Splits b ps r)
    (h' : Splits (r ++ c) ps' r') : Splits (b ++ c) (ps ++ ps') r' := by
  induction h with
  | done => exact h'
  | @cut b i _ _ hb _ ih =>
    obtain ⟨h1, ⟨v, hv, -⟩, -⟩ := boundary_eq_some hb
    have hlen := wordAt_le hv
    have hih := ih h'
    rw [← List.drop_append_of_le_length (removed_bounds hb).2, ← removed_append hb c] at hih
    have hcut := Splits.cut (boundary_append hb c) hih
    rwa [List.take_append_of_le_length (by omega)] at hcut

theorem packets_rest_append (b c : List Byte) :
    packets (b ++ c) = packets b ++ packets (rest b ++ c) ∧ rest (b ++ c) = rest (rest b ++ c) :=
  ((splits_packets_rest b).append (splits_packets_rest (rest b ++ c))).eq_packets_rest

theorem packets_rest_of_boundary {b : List Byte} {i : Nat} (hb : boundary b = some i) :
    packets b = b.take (8 * i) :: packets (b.drop (removed b i)) ∧ rest b = rest (b.drop (removed b i)) :=
  (Splits.cut hb (splits_packets_rest _)).eq_packets_rest

theorem packets_rest_of_no_boundary {b : List Byte} (hb : boundary b = none) : packets b = [] ∧ rest b = b :=
  (Splits.done hb).eq_packets_rest

/-! ### The scan index and the boundary -/

theorem ScanInv.passed {s : State} (hi : ScanInv s) {j : Nat} (hj1 : 1 ≤ j) (hj : j < s.si) {u : Word}
    (hu : wordAt s.buf j = some u) : classify u = .photon := by
  obtain ⟨-, -, hph⟩ := hi
  have hcls := hph j hj hj1
  rw [hu] at hcls
  exact Option.some.inj hcls

/-- The first word that SCAN meets and is no photon is the boundary. -/
theorem ScanInv.boundary_eq_si {s : State} (hi : ScanInv s) {v : Word} (hv : wordAt s.buf s.si = some v)
    (hc : classify v ≠ .photon) : boundary s.buf = some s.si :=
  boundary_eq_some_of_least hi.1 hv hc fun _ hj1 hj _ hu => hi.passed hj1 hj hu

/-- A quiescent state's buffer holds no boundary (41_reassembly.md R86). -/
theorem ScanInv.no_boundary {s : State} (hi : ScanInv s) (hq : s.quiescent = true) : boundary s.buf = none := by
  have hlt := (s.quiescent_iff.1 hq).2
  exact boundary_eq_none fun j hj1 u hu => hi.passed hj1 (by have := wordAt_le hu; omega) hu

theorem ScanInv.boundaryClass_passed {s : State} (hi : ScanInv s) {j : Nat} (hj1 : 1 ≤ j) (hj : j < s.si) :
    boundaryClass s.buf j = none := by
  cases hu : wordAt s.buf j with
  | none => exact boundaryClass_of_no_word hu
  | some u => rw [boundaryClass_of_wordAt hu, if_pos (hi.passed hj1 hj hu)]

theorem MoveStep.keeps_scanInv {m : Move} {s t : State} (h : MoveStep m s t) (hi : ScanInv s) : ScanInv t := by
  cases h with
  | noStep | sameSecond | overflow | stop | rotate => exact hi
  | reset | boundary => exact .of_si_eq_one (by simp)
  | append => exact hi.append _
  | advance _ hv hc => exact hi.advance hv hc

/-! ### The stream law -/

theorem StreamLaw.append {stream : List Byte} {s : State} (hl : StreamLaw stream s) (c : List Byte) :
    StreamLaw (stream ++ c) (s.append c) := by
  obtain ⟨hpkt, hrest⟩ := hl
  obtain ⟨hps, hrs⟩ := packets_rest_append stream c
  obtain ⟨hpb, hrb⟩ := packets_rest_append s.buf c
  refine ⟨?_, ?_⟩
  · rw [hps, hpkt, hrest, State.append_pktOut, State.append_buf, hpb, List.append_assoc]
  · rw [hrs, hrest, State.append_buf, hrb]

/-- At a boundary the first packet of the buffer goes to pkt_out, and the bytes removed are those `packets` removes. -/
theorem StreamLaw.afterBoundary {stream : List Byte} {s : State} (hl : StreamLaw stream s) (hi : ScanInv s) {v : Word}
    {n : Nat} (hv : wordAt s.buf s.si = some v)
    (hn : classify v = .hdr ∧ n = 8 * s.si ∨ classify v = .term ∧ n = 8 * s.si + 8) (w : Word) (ws : List Word) :
    StreamLaw stream (s.afterBoundary n w ws) := by
  obtain ⟨hpkt, hrest⟩ := hl
  have hcut : boundary s.buf = some s.si ∧ removed s.buf s.si = n := by
    rcases hn with ⟨hc, rfl⟩ | ⟨hc, rfl⟩
    · exact ⟨hi.boundary_eq_si hv (by simp [hc]), removed_of_hdr hv hc⟩
    · exact ⟨hi.boundary_eq_si hv (by simp [hc]), removed_of_term hv hc⟩
  obtain ⟨hb, rfl⟩ := hcut
  obtain ⟨hpb, hrb⟩ := packets_rest_of_boundary hb
  refine ⟨?_, ?_⟩
  · rw [hpkt, hpb, State.afterBoundary_pktOut, State.afterBoundary_buf, List.append_assoc, List.singleton_append]
  · rw [hrest, hrb, State.afterBoundary_buf]

theorem StreamLaw.of_no_bytes {stream : List Byte} {t : State} {m : Move} (hl : StreamLaw stream t)
    (hnil : t.mode = .run → m.bytes = []) :
    StreamLaw (stream ++ (if t.mode = .run then m.bytes else [])) t := by
  split
  next hr => rwa [hnil hr, List.append_nil]
  next => rwa [List.append_nil]

/-- The stream grows by what a move really appends: nothing where PRE is not running after it. -/
theorem MoveStep.keeps_streamLaw {m : Move} {s t : State} {stream : List Byte} (h : MoveStep m s t)
    (hm : ∀ n, m ≠ .reset n) (hi : ScanInv s) (hl : StreamLaw stream s) :
    StreamLaw (stream ++ (if t.mode = .run then m.bytes else [])) t := by
  cases h with
  | noStep hs => exact hl.of_no_bytes (bytes_eq_nil_of_noStep hs)
  | reset sec => exact absurd rfl (hm sec)
  | append hr =>
    rw [State.append_mode, if_pos hr]
    exact hl.append _
  | overflow => exact StreamLaw.of_no_bytes (t := s.raiseBufferOverflow) hl nofun
  | stop | advance | sameSecond | rotate => exact StreamLaw.of_no_bytes hl (fun _ => rfl)
  | boundary _ hv hn => exact (hl.afterBoundary hi hv hn _ _).of_no_bytes (fun _ => rfl)

/-- Settles O51: each transition keeps the law; only an append lengthens the stream, and only a boundary emits. -/
theorem stepKeepsStreamLaw : Obligations.StepKeepsStreamLaw := by
  intro s t stream hi hl hstep hm
  rw [← State.nextMove_bytes]
  exact (MoveStep.of_step hstep).keeps_streamLaw (fun n he => hm n (State.nextMove_eq_reset_iff.1 he)) hi hl

end Sys2Proof.Machine

/-! SUPPORT. SCAN of 41_reassembly.md: what it leaves at a photon, at a boundary and at a word not yet whole, the word
rows as its outcomes, SCAN steps that drain the buffer, and runs of PUSH, SCAN and TICK. -/

namespace Sys2Proof.Machine

/-! ### SCAN where nothing is cut -/

/-- Settles O20: the advance, in RUN. -/
theorem scanPhotonAdvances : Obligations.ScanPhotonAdvances :=
  fun _ _ hr hw hc => (MoveStep.advance hr hw hc).exec_scan

/-- Settles O24: the instruction's meaning is SCAN's outcome for its class. -/
theorem scanRunsDecodedWord : Obligations.ScanRunsDecodedWord :=
  fun _ _ hw => exec_scan_eq_exec_decodeWord hw

/-- Settles O25: SCAN has no step before the word at `si` is whole. -/
theorem scanWaitsForWholeWord : Obligations.ScanWaitsForWholeWord := by
  intro s hlt
  have hstep : hasStep .scan s = false := by
    rw [← Bool.not_eq_true, hasStep, s.scanEnabled_iff]
    omega
  exact (MoveStep.noStep (m := .scan) hstep).exec_scan

/-- Settles O40: a step with nothing scheduled is SCAN. -/
theorem stepRunsDecodedWord : Obligations.StepRunsDecodedWord :=
  ⟨fun s w hs hw => (step_eq_exec_scan hs).trans (scanRunsDecodedWord s w hw),
    fun s hs hlt => (step_eq_exec_scan hs).trans (scanWaitsForWholeWord s hlt)⟩

/-! ### What a cut delivers -/

theorem State.cut_eq_afterBoundary {s : State} {w : Word} {ws : List Word}
    (hw : words (s.buf.take (8 * s.si)) = w :: ws) (n : Nat) : s.cut n = .next (s.afterBoundary n w ws) :=
  (s.cut_eq n).trans (State.deliver_eq _ hw)

/-- The packet in front of a word that has arrived at `si ≥ 1` has its own word 0. -/
theorem State.exists_packet_words {s : State} (h1 : 1 ≤ s.si) (hlen : 8 * (s.si + 1) ≤ s.buf.length) :
    ∃ w ws, words (s.buf.take (8 * s.si)) = w :: ws :=
  let ⟨_, hv⟩ := wordAt_isSome hlen
  cut_words hv h1

/-- A boundary does what DELIVER does: the buffer and `si`, which SCAN changes first, are not among it. -/
theorem State.afterBoundary_delivered {s : State} (hi : ImageInv s) {w : Word} {ws : List Word}
    (hw : words (s.buf.take (8 * s.si)) = w :: ws) (n : Nat) :
    Delivered (s.buf.take (8 * s.si)) (decodeHeader w) ws s (s.afterBoundary n w ws) := by
  obtain ⟨t, ht, hd, -⟩ := State.deliver_delivered (s := { s with buf := s.buf.drop n, si := 1 }) hi hw
  cases (State.deliver_eq _ hw).symm.trans ht
  exact { hd with }

/-- The outcome at a boundary: how many bytes SCAN removes at a word that is no photon. -/
theorem exists_removed_of_not_photon {v : Word} (hc : classify v ≠ .photon) (si : Nat) :
    ∃ n, classify v = .hdr ∧ n = 8 * si ∨ classify v = .term ∧ n = 8 * si + 8 := by
  cases h : classify v with
  | hdr => exact ⟨_, .inl ⟨rfl, rfl⟩⟩
  | term => exact ⟨_, .inr ⟨rfl, rfl⟩⟩
  | photon => exact absurd h hc

/-- SCAN at a boundary that removes `n` bytes. -/
theorem exec_scan_boundary {s : State} {v : Word} {n : Nat} (hr : s.mode = .run) (h1 : 1 ≤ s.si) (hi : ImageInv s)
    (hv : wordAt s.buf s.si = some v)
    (hn : classify v = .hdr ∧ n = 8 * s.si ∨ classify v = .term ∧ n = 8 * s.si + 8) :
    ∃ w ws, words (s.buf.take (8 * s.si)) = w :: ws ∧ exec .scan s = .next (s.afterBoundary n w ws) ∧
      Delivered (s.buf.take (8 * s.si)) (decodeHeader w) ws s (s.afterBoundary n w ws) :=
  let ⟨w, ws, hw⟩ := cut_words hv h1
  ⟨w, ws, hw, (MoveStep.boundary hr hv hn hw).exec_scan, State.afterBoundary_delivered hi hw n⟩

/-- Settles O21: the boundary that removes the words before `si`, so that word `si` is the new word 0. -/
theorem scanHeaderIsNormalBoundary : Obligations.ScanHeaderIsNormalBoundary := by
  intro s v hr h1 hi hv hc
  obtain ⟨w, ws, hw, hex, hd⟩ := exec_scan_boundary hr h1 hi hv (.inl ⟨hc, rfl⟩)
  refine ⟨w, ws, _, hw, hex, s.afterBoundary_buf _ w ws, ?_, s.afterBoundary_si _ w ws, hd⟩
  rw [State.afterBoundary_buf, wordAt_drop, Nat.add_zero, hv]

/-- Settles O22: the boundary that removes the marker too. -/
theorem scanTerminatorIsBoundary : Obligations.ScanTerminatorIsBoundary := by
  intro s v hr h1 hi hv hc
  obtain ⟨w, ws, hw, hex, hd⟩ := exec_scan_boundary hr h1 hi hv (.inr ⟨hc, rfl⟩)
  exact ⟨w, ws, _, hw, hex, s.afterBoundary_buf _ w ws, s.afterBoundary_si _ w ws, hd⟩

/-! ### The word rows where SCAN has a step -/

theorem exec_hdr_eq_cut {s : State} (he : s.scanEnabled = true) (ch : BitVec 8) (fr : BitVec 12) (ts : BitVec 36) :
    exec (.hdr ch fr ts) s = s.cut (8 * s.si) := State.when_true he _

theorem exec_term_eq_cut {s : State} (he : s.scanEnabled = true) (r : BitVec 48) :
    exec (.term r) s = s.cut (8 * s.si + 8) := State.when_true he _

theorem exec_photon_eq_advance {s : State} (he : s.scanEnabled = true) (x y : BitVec 10) (lt : BitVec 9)
    (wv : BitVec 18) (bl : BitVec 17) : exec (.photon x y lt wv bl) s = s.advance := State.when_true he _

/-- Settles O23: with SCAN enabled the rows HDR and TERM are the two cuts, and PHOTON is the advance. -/
theorem wordRowsAreScanOutcomes : Obligations.WordRowsAreScanOutcomes := by
  intro s hr h1 hi hlen
  obtain ⟨w, ws, hw⟩ := State.exists_packet_words h1 hlen
  have he : s.scanEnabled = true := s.scanEnabled_iff.2 ⟨hr, hlen⟩
  have hcut (n : Nat) : ∃ t, s.cut n = .next t ∧ t.buf = s.buf.drop n ∧ t.si = 1 ∧
      Delivered (s.buf.take (8 * s.si)) (decodeHeader w) ws s t :=
    ⟨_, State.cut_eq_afterBoundary hw n, s.afterBoundary_buf n w ws, s.afterBoundary_si n w ws,
      State.afterBoundary_delivered hi hw n⟩
  refine ⟨w, ws, hw, fun ch fr ts => ?_, fun r => ?_, exec_photon_eq_advance he⟩
  · rw [exec_hdr_eq_cut he]
    exact hcut _
  · rw [exec_term_eq_cut he]
    exact hcut _

/-! ### The packet of a boundary -/

/-- The packet in front of `si ≥ 1` begins with the buffer's word 0. -/
theorem wordAt_zero_of_packet_words {b : List Byte} {n : Nat} {w : Word} {ws : List Word} (h1 : 1 ≤ n)
    (hw : words (b.take (8 * n)) = w :: ws) : wordAt b 0 = some w := by
  have hget : wordAt (b.take (8 * n)) 0 = some w := by rw [← words_getElem?, hw]; rfl
  rwa [wordAt_take_words, if_pos (Nat.lt_of_lt_of_le Nat.zero_lt_one h1)] at hget

/-- Settles O27: the packet is `8 * si` bytes long, and the one event after Oversize is the sequence check's. -/
theorem oversizeFlaggedIffLonger : Obligations.OversizeFlaggedIffLonger := by
  intro s v w0 hr h1 hi hv hc hw0
  obtain ⟨n, hn⟩ := exists_removed_of_not_photon hc s.si
  obtain ⟨w, ws, hw, hex, hd⟩ := exec_scan_boundary hr h1 hi hv hn
  cases hw0.symm.trans (wordAt_zero_of_packet_words h1 hw)
  have hlen : (s.buf.take (8 * s.si)).length = 8 * s.si :=
    List.length_take_of_le (by have := wordAt_le hv; omega)
  have hover := hd.oversizeCount
  have hrep := hd.reported
  have hpix := hd.pixels
  rw [hlen] at hover hrep
  refine ⟨_, _, hex, hover, hrep, fun e he => ?_, by rwa [hw], hd.advanced, hd.counted⟩
  split at he
  next => cases he
  next => cases List.mem_singleton.1 he; rfl

theorem State.afterBoundary_expected_self (s : State) (n : Nat) (w : Word) (ws : List Word) :
    ((s.afterBoundary n w ws).expected (decodeHeader w).channelId).toNat =
      ((if s.cfg.seqResync then (decodeHeader w).frameNumber.toNat
        else (s.expected (decodeHeader w).channelId).toNat) + 1) % 4096 := by
  rw [State.afterBoundary, State.record_expected_self, nextExpected_toNat, State.expected_before_record]
  simp

/-- Settles O26: the packet is one word, so no coordinates are accumulated. -/
theorem headerOnlyPacketDelivered : Obligations.HeaderOnlyPacketDelivered := by
  intro s w0 v hr hsi hw0 hv hc
  rw [← hsi] at hv
  have hlen := wordAt_le hw0
  obtain ⟨n, hn⟩ := exists_removed_of_not_photon hc s.si
  have hhead : (words s.buf)[0]? = some w0 := (words_getElem? s.buf 0).trans hw0
  have hw : words (s.buf.take (8 * s.si)) = [w0] := by
    rw [words_take, hsi, List.take_one, List.head?_eq_getElem?, hhead]
    rfl
  refine ⟨_, (MoveStep.boundary hr hv hn hw).exec_scan, ?_, List.length_take_of_le hlen,
    s.afterBoundary_expected_self n w0 [], s.afterBoundary_pktCount n w0 [], fun k => ?_⟩
  · rw [State.afterBoundary_pktOut, hsi]
  · rw [State.afterBoundary_img]
    rfl

/-! ### No instruction stops -/

/-- The instruction's outcome is a next state, or the fault of a scan index of 0 (log entry 7). -/
def NextOrIndexZero (s : State) (o : Host.Outcome State Fault Refusal) : Prop :=
  (∃ t, o = .next t) ∨ (s.si = 0 ∧ o = .fault .wordNotWhole)

theorem NextOrIndexZero.next (s t : State) : NextOrIndexZero s (.next t) := .inl ⟨t, rfl⟩

/-- A guarded operation stops only where its `requires` holds. -/
theorem NextOrIndexZero.when {s : State} {requires : Bool} {act : State → Host.Outcome State Fault Refusal}
    (h : requires = true → NextOrIndexZero s (act s)) : NextOrIndexZero s (s.when requires act) := by
  cases requires with
  | false => exact .next s s
  | true => exact h rfl

/-- With a word at `si` the packet in front of it is empty from `si = 0` alone. -/
theorem NextOrIndexZero.cut {s : State} (he : s.scanEnabled = true) (n : Nat) : NextOrIndexZero s (s.cut n) := by
  have hlen := (s.scanEnabled_iff.1 he).2
  rcases Nat.eq_zero_or_pos s.si with h0 | h1
  · exact .inr ⟨h0, (s.cut_eq n).trans (State.deliver_fault _ (by rw [h0]; rfl))⟩
  · obtain ⟨w, ws, hw⟩ := State.exists_packet_words h1 hlen
    exact .inl ⟨_, State.cut_eq_afterBoundary hw n⟩

theorem NextOrIndexZero.examine {s : State} (he : s.scanEnabled = true) : NextOrIndexZero s s.examine := by
  obtain ⟨v, hv⟩ := wordAt_isSome (s.scanEnabled_iff.1 he).2
  rw [State.examine_eq hv]
  cases classify v with
  | photon => exact .next s _
  | hdr => exact .cut he _
  | term => exact .cut he _

/-- Settles O38: only a cut can stop, and the guarded operations but SCAN and the boundary rows have no cut. -/
theorem nothingFaultsOrIsRefused : Obligations.NothingFaultsOrIsRefused := by
  intro i s
  change NextOrIndexZero s (exec i s)
  cases i with
  | reset n => exact .next s _
  | scan => exact .when .examine
  | hdr | term => exact .when fun he => .cut he _
  | hdr0 | photon | stop =>
    apply NextOrIndexZero.when
    exact fun _ => .next s _
  | push | tick =>
    apply NextOrIndexZero.when
    intro _
    split <;> exact .next s _

/-! ### SCAN steps alone -/

/-- An enabled SCAN leaves fewer words from `si` on, by one at least (41_reassembly.md R93). -/
theorem MoveStep.scan_decreases {s t : State} (h : MoveStep .scan s t) (he : s.scanEnabled = true) :
    t.mode = .run ∧ 1 ≤ t.si ∧ t.buf.length / 8 - t.si < s.buf.length / 8 - s.si := by
  obtain ⟨hr, hlen⟩ := s.scanEnabled_iff.1 he
  cases h with
  | noStep hs => cases hs.symm.trans he
  | advance =>
    refine ⟨hr, Nat.succ_pos _, ?_⟩
    simp only [State.setSi_buf, State.setSi_si]
    omega
  | boundary _ _ hn =>
    refine ⟨by simpa using hr, by simp, ?_⟩
    simp only [State.afterBoundary_buf, State.afterBoundary_si, List.length_drop]
    omega

theorem drain_within {k : Nat} {s : State} (hr : s.mode = .run) (h1 : 1 ≤ s.si) (hk : s.buf.length / 8 - s.si ≤ k) :
    ∃ n ≤ k, ∃ t, perform (List.replicate n .scan) s = .next t ∧ t.quiescent = true := by
  induction k generalizing s with
  | zero => exact ⟨0, le_rfl, s, rfl, s.quiescent_iff.2 ⟨hr, by omega⟩⟩
  | succ k ih =>
    by_cases hq : s.quiescent = true
    · exact ⟨0, Nat.zero_le _, s, rfl, hq⟩
    have he : s.scanEnabled = true :=
      s.scanEnabled_iff.2 ⟨hr, Nat.le_of_not_lt fun hlt => hq (s.quiescent_iff.2 ⟨hr, hlt⟩)⟩
    obtain ⟨u, hu⟩ : ∃ u, exec .scan s = .next u :=
      (nothingFaultsOrIsRefused .scan s).resolve_right fun h => by omega
    obtain ⟨hru, h1u, hlt⟩ := (MoveStep.of_scan hu).scan_decreases he
    obtain ⟨n, hn, t, ht, hqt⟩ := ih hru h1u (by omega)
    exact ⟨n + 1, Nat.succ_le_succ hn, t, (perform_cons_of_next (m := .scan) hu _).trans ht, hqt⟩

/-- Settles O52: the words from `si` on bound the SCAN steps. -/
theorem drainTerminates : Obligations.DrainTerminates := by
  intro s hr h1
  exact drain_within hr h1 (Nat.sub_le _ _)

/-! ### Runs from reset -/

/-- A run of streaming moves keeps the scanner's invariant and the stream law, the stream growing by the bytes pushed. -/
theorem perform_keeps_streamLaw {ms : List Move} {s t : State} {stream : List Byte}
    (hms : ∀ m ∈ ms, m.isStreaming = true) (hr : s.mode = .run) (hcap : s.cfg.bufCap = none) (hi : ScanInv s)
    (hl : StreamLaw stream s) (h : perform ms s = .next t) : ScanInv t ∧ StreamLaw (stream ++ pushedBytes ms) t := by
  induction ms generalizing s stream with
  | nil =>
    cases h
    exact ⟨hi, by rwa [pushedBytes, List.flatMap_nil, List.append_nil]⟩
  | cons m ms ih =>
    obtain ⟨u, hu, h⟩ := perform_cons h
    obtain ⟨hm, hms⟩ := List.forall_mem_cons.1 hms
    have hstep := MoveStep.of_exec hu
    have hur := hstep.keeps_run hm hr hcap
    have hlu := hstep.keeps_streamLaw (ne_reset_of_isStreaming hm) hi hl
    rw [if_pos hur] at hlu
    rw [pushedBytes, List.flatMap_cons, ← List.append_assoc]
    exact ih hms hur (by rw [exec_keeps_cfg hu, hcap]) (hstep.keeps_scanInv hi) hlu h

/-- Settles O53: the stream law from the empty stream; a quiescent buffer has no boundary. -/
theorem packetsAreFunctionOfStream : Obligations.PacketsAreFunctionOfStream := by
  intro cfg n ms t hcap hms h
  have hl0 : StreamLaw [] (State.resetWith cfg n) := ⟨rfl, rfl⟩
  obtain ⟨hi, hpkt, hrest⟩ := perform_keeps_streamLaw hms rfl hcap (.of_si_eq_one rfl) hl0 h
  rw [List.nil_append] at hpkt hrest
  refine ⟨⟨_, hpkt⟩, fun hq => ?_, fun j => hi.boundaryClass_passed⟩
  obtain ⟨hnone, hself⟩ := packets_rest_of_no_boundary (hi.no_boundary hq)
  rw [hpkt, hrest, hnone, hself, List.append_nil]
  exact ⟨rfl, rfl⟩

/-! ### Chunks -/

/-- One SCAN that has a step. -/
def ScanStep (s t : State) : Prop := s.scanEnabled = true ∧ exec .scan s = .next t

theorem ScanStep.append {s t : State} (h : ScanStep s t) (c : List Byte) : ScanStep (s.append c) (t.append c) := by
  obtain ⟨he, ht⟩ := h
  obtain ⟨hr, hlen⟩ := s.scanEnabled_iff.1 he
  refine ⟨(s.append c).scanEnabled_iff.2 ⟨hr, ?_⟩, by rw [exec_scan_append he, ht]; rfl⟩
  rw [State.append_buf, State.append_si, List.length_append]
  omega

theorem scanStep_rightUnique : Relator.RightUnique ScanStep :=
  fun _ _ _ h h' => Host.Outcome.next.inj (h.2.symm.trans h'.2)

/-- No SCAN has a step in a quiescent state, so SCAN steps from it end where they begin. -/
theorem eq_of_scanSteps_of_quiescent {s t : State} (h : Relation.ReflTransGen ScanStep s t)
    (hq : s.quiescent = true) : t = s := by
  rcases h.cases_head with rfl | ⟨u, ⟨he, -⟩, -⟩
  · rfl
  · have hlt := (s.quiescent_iff.1 hq).2
    have hle := (s.scanEnabled_iff.1 he).2
    omega

/-- SCAN steps from one state have one quiescent end. -/
theorem scanSteps_quiescent_unique {s t t' : State} (h : Relation.ReflTransGen ScanStep s t)
    (h' : Relation.ReflTransGen ScanStep s t') (hq : t.quiescent = true) (hq' : t'.quiescent = true) : t = t' := by
  rcases Relation.ReflTransGen.total_of_right_unique scanStep_rightUnique h h' with h | h
  · exact (eq_of_scanSteps_of_quiescent h hq).symm
  · exact eq_of_scanSteps_of_quiescent h hq'

theorem State.append_append (s : State) (c d : List Byte) : (s.append c).append d = s.append (c ++ d) := by
  simp [State.append]

/-- Every PUSH of a run may come first: the run's end is reached by SCAN steps from the state with all of its bytes
(40_ingress.md R70, 41_reassembly.md R90). -/
theorem perform_scanSteps {ms : List Move} {s t : State} (hms : ∀ m ∈ ms, m.isDataOnly = true) (hr : s.mode = .run)
    (hcap : s.cfg.bufCap = none) (h : perform ms s = .next t) :
    Relation.ReflTransGen ScanStep (s.append (pushedBytes ms)) t := by
  induction ms generalizing s with
  | nil =>
    cases h
    rw [pushedBytes, List.flatMap_nil, State.append, List.append_nil]
  | cons m ms ih =>
    obtain ⟨u, hu, hrun⟩ := perform_cons h
    obtain ⟨hm, hms'⟩ := List.forall_mem_cons.1 hms
    cases m with
    | push c =>
      cases hu.symm.trans (exec_push_of_unbounded hr hcap c)
      have hsteps := ih (s := s.append c) hms' hr hcap hrun
      rwa [State.append_append] at hsteps
    | scan =>
      have hru : u.mode = .run := (MoveStep.of_scan hu).keeps_run rfl hr hcap
      have hsteps := ih hms' hru (by rw [exec_keeps_cfg hu, hcap]) hrun
      by_cases he : s.scanEnabled = true
      · exact .head (ScanStep.append ⟨he, hu⟩ _) hsteps
      · cases hu.symm.trans (State.when_false (Bool.not_eq_true _ ▸ he) _)
        exact hsteps
    | reset | tick | stop => cases hm

/-- Settles O54: both runs end in the one quiescent end of the SCAN steps from the state with all the bytes. -/
theorem chunkingDoesNotMatter : Obligations.ChunkingDoesNotMatter := by
  intro s t t' ms ms' hr hcap _ hms hms' hbytes h h' hq hq'
  have hend := perform_scanSteps hms hr hcap h
  have hend' := perform_scanSteps hms' hr hcap h'
  rw [← hbytes] at hend'
  exact scanSteps_quiescent_unique hend hend' hq hq'

end Sys2Proof.Machine

/-! SUPPORT. The decoder of 42_decoder.md: a packet's words as its header and reduced pairs, coordinates inside the image,
and a header recorded by itself. -/

namespace Sys2Proof.Machine

/-! ### DECODE word by word -/

/-- Word 0 of a packet is the head of its list of words, and word `i + 1` is entry `i` of the tail. -/
theorem wordAt_of_words_eq_cons {p : List Byte} {w : Word} {ws : List Word} (h : words p = w :: ws) :
    wordAt p 0 = some w ∧ ∀ i, wordAt p (i + 1) = ws[i]? := by
  refine ⟨?_, fun i => ?_⟩
  · rw [← words_getElem?, h, List.getElem?_cons_zero]
  · rw [← words_getElem?, h, List.getElem?_cons_succ]

/-- Settles O11: the packet's list of words split into word 0 and the later ones. That the packet is whole words is not
needed, as a partial word at its end would not be read. -/
theorem packetDecodesWordByWord : Obligations.PacketDecodesWordByWord := by
  intro cfg p _ hlen
  obtain ⟨w, ws, hw⟩ := List.exists_cons_of_ne_nil (words_ne_nil hlen)
  obtain ⟨hfirst, hlater⟩ := wordAt_of_words_eq_cons hw
  refine ⟨w, _, _, hfirst, decodePacket_eq cfg hw, rfl, ?_, fun i hi => ?_⟩
  · rw [List.length_map, ← words_length, hw, List.length_cons, Nat.add_sub_cancel]
  · obtain ⟨v, hv⟩ := wordAt_isSome (s := p) (i := i + 1) (by omega)
    exact ⟨v, hv, by rw [List.getElem?_map, ← hlater, hv, Option.map_some]⟩

/-! ### REDUCE -/

/-- An axis at least as long as the 10 bits of a coordinate reach does not change it. -/
theorem coord_mod_eq_self (c : BitVec 10) {pix : Nat} (h : 1024 ≤ pix) : c.toNat % pix = c.toNat :=
  Nat.mod_eq_of_lt (c.isLt.trans_le h)

/-- Settles O9: a remainder by a positive dimension is below it, and the image index is bounded by `pixelIndex_lt`. -/
theorem reducedCoordinatesIndexImage : Obligations.ReducedCoordinatesIndexImage :=
  fun cfg ph => ⟨rfl, Nat.mod_lt _ cfg.xpix_pos, Nat.mod_lt _ cfg.ypix_pos, coord_mod_eq_self ph.xCoord,
    coord_mod_eq_self ph.yCoord, pixelIndex_lt cfg ph⟩

/-! ### A header by itself -/

/-- In RUN the row HDR0 is RECORD of a packet without photon words. -/
theorem exec_hdr0_eq_record {s : State} (hr : s.mode = .run) (sm ch : BitVec 8) (fr : BitVec 12) (ts : BitVec 36) :
    exec (.hdr0 sm ch fr ts) s = .next (s.record ⟨sm, ch, fr, ts⟩ []) := by
  rw [exec, execHdr0, State.when_true (s.running_iff.2 hr)]

/-- The frame number expected next of a recorded packet's channel (43_accumulate_window.md R112, R113). -/
theorem State.record_expected_self_toNat (s : State) (h : Header) (xys : List (Nat × Nat)) :
    ((s.record h xys).expected h.channelId).toNat =
      ((if s.cfg.seqResync then h.frameNumber.toNat else (s.expected h.channelId).toNat) + 1) % 4096 := by
  rw [State.record_expected_self, nextExpected_toNat]

/-- Settles O29: RECORD of the header with no coordinates, element by element; without a pair the image stays. -/
theorem headerWordIsRecorded : Obligations.HeaderWordIsRecorded := by
  intro sm ch fr ts s hr
  have hseq := s.record_expected_self_toNat ⟨sm, ch, fr, ts⟩ []
  refine ⟨_, exec_hdr0_eq_record hr sm ch fr ts, fun heq => ?_, fun hne => ?_, fun hc => ?_, fun hc => ?_,
    fun c hc => s.record_expected_other _ _ hc, s.record_pktCount _ _, s.record_mode _ _, s.record_buf _ _,
    s.record_si _ _, s.record_img _ _, s.record_winSec _ _, s.record_nOversize _ _, s.record_pktOut _ _,
    s.record_snapOut _ _, s.record_renderOut _ _, s.record_cfg _ _, s.record_sched _ _⟩
  · simp [heq]
  · simp [hne]
  · simpa [hc] using hseq
  · simpa [hc] using hseq

end Sys2Proof.Machine

/-! SUPPORT. Accumulation and windows of 43_accumulate_window.md: the counter update, the sequence check of a boundary,
TICK and its rotation, and the sequence, pixel and window laws that every move keeps. -/

namespace Sys2Proof.Machine

/-! ### The sequence law -/

theorem packetHeader_of_words {p : List Byte} {w : Word} {ws : List Word} (h : words p = w :: ws) :
    packetHeader p = some (decodeHeader w) := by
  rw [packetHeader, h]
  rfl

/-- A packet joins its own channel's packets, last. -/
theorem packetsOf_concat_self {p : List Byte} {h : Header} (hp : packetHeader p = some h) (out : List (List Byte)) :
    packetsOf (out ++ [p]) h.channelId = packetsOf out h.channelId ++ [p] := by
  simp [packetsOf, hp]

theorem packetsOf_concat_other {p : List Byte} {h : Header} (hp : packetHeader p = some h) (out : List (List Byte))
    {chan : BitVec 8} (hc : chan ≠ h.channelId) : packetsOf (out ++ [p]) chan = packetsOf out chan := by
  simp [packetsOf, hp, hc.symm]

/-- How many of one channel's packets have a frame number that is not their rank: the right side of the second half of
`SeqLaw`. -/
def offRankCount (ps : List (List Byte)) : Nat :=
  ps.zipIdx.countP fun pj => decide ((packetHeader pj.1).map (fun h => h.frameNumber.toNat) ≠ some (pj.2 % 4096))

/-- The packet that comes last has as its rank the number of packets before it. -/
theorem offRankCount_concat {p : List Byte} {h : Header} (hp : packetHeader p = some h) (ps : List (List Byte)) :
    offRankCount (ps ++ [p]) = offRankCount ps + (if h.frameNumber.toNat = ps.length % 4096 then 0 else 1) := by
  simp [offRankCount, List.zipIdx_append, List.countP_append, List.countP_singleton, hp]

/-- What `SeqLaw` says of one channel. -/
def SeqLawOf (chan : BitVec 8) (s : State) : Prop :=
  (s.expected chan).toNat = (packetsOf s.pktOut chan).length % 4096 ∧
    s.diagOut.countP (Diag.isMismatchOf chan) = offRankCount (packetsOf s.pktOut chan)

theorem seqLaw_iff {s : State} : SeqLaw s ↔ (s.cfg.seqResync = false → ∀ chan, SeqLawOf chan s) := Iff.rfl

theorem State.afterBoundary_expected_other (s : State) (n : Nat) (w : Word) (ws : List Word) {chan : BitVec 8}
    (hc : chan ≠ (decodeHeader w).channelId) : (s.afterBoundary n w ws).expected chan = s.expected chan := by
  rw [State.afterBoundary, State.record_expected_other _ _ _ hc, State.expected_before_record]

/-- A boundary flags a mismatch of its packet's channel alone, where the frame number is not the expected one. -/
theorem State.afterBoundary_mismatchCount (s : State) (n : Nat) (w : Word) (ws : List Word) (chan : BitVec 8) :
    (s.afterBoundary n w ws).diagOut.countP (Diag.isMismatchOf chan) =
      s.diagOut.countP (Diag.isMismatchOf chan) +
        (if s.expected (decodeHeader w).channelId = (decodeHeader w).frameNumber then 0
         else if (decodeHeader w).channelId = chan then 1 else 0) := by
  rw [State.afterBoundary_diagOut, List.countP_append, List.countP_append]
  split <;> split <;> simp [Diag.isMismatchOf, List.countP_singleton]

/-- The channel of the packet delivered: the expected frame was the rank of this packet, so the two checks agree. -/
theorem SeqLawOf.afterBoundary_self {s : State} {w : Word} {ws : List Word}
    (hl : SeqLawOf (decodeHeader w).channelId s) (hres : s.cfg.seqResync = false)
    (hw : words (s.buf.take (8 * s.si)) = w :: ws) (n : Nat) :
    SeqLawOf (decodeHeader w).channelId (s.afterBoundary n w ws) := by
  obtain ⟨hexp, hmis⟩ := hl
  have hp := packetHeader_of_words hw
  have hrank : s.expected (decodeHeader w).channelId = (decodeHeader w).frameNumber ↔
      (decodeHeader w).frameNumber.toNat = (packetsOf s.pktOut (decodeHeader w).channelId).length % 4096 := by
    rw [← BitVec.toNat_inj, hexp, eq_comm]
  rw [SeqLawOf, State.afterBoundary_pktOut, packetsOf_concat_self hp]
  refine ⟨?_, ?_⟩
  · rw [State.afterBoundary_expected_self, hres, if_neg Bool.false_ne_true, hexp, List.length_append,
      List.length_singleton, Nat.mod_add_mod]
  · rw [State.afterBoundary_mismatchCount, offRankCount_concat hp, hmis, if_pos rfl]
    simp only [hrank]

theorem SeqLawOf.afterBoundary_other {s : State} {chan : BitVec 8} {w : Word} {ws : List Word}
    (hl : SeqLawOf chan s) (hc : chan ≠ (decodeHeader w).channelId)
    (hw : words (s.buf.take (8 * s.si)) = w :: ws) (n : Nat) : SeqLawOf chan (s.afterBoundary n w ws) := by
  rw [SeqLawOf, State.afterBoundary_pktOut, packetsOf_concat_other (packetHeader_of_words hw) _ hc,
    State.afterBoundary_expected_other _ _ _ _ hc, State.afterBoundary_mismatchCount, if_neg hc.symm, ite_self]
  exact hl

theorem SeqLaw.afterBoundary {s : State} (hl : SeqLaw s) {w : Word} {ws : List Word}
    (hw : words (s.buf.take (8 * s.si)) = w :: ws) (n : Nat) : SeqLaw (s.afterBoundary n w ws) := by
  rw [seqLaw_iff, State.afterBoundary_cfg]
  intro hres chan
  have hchan := seqLaw_iff.1 hl hres chan
  by_cases hc : chan = (decodeHeader w).channelId
  · subst hc
    exact hchan.afterBoundary_self hres hw n
  · exact hchan.afterBoundary_other hc hw n

/-- A rotation touches neither `Seq` nor pkt_out, and the event it reports is no mismatch
(43_accumulate_window.md R118). -/
theorem SeqLaw.rotate {s : State} (hl : SeqLaw s) (now : Nat) : SeqLaw (s.rotate now) := by
  intro hres chan
  obtain ⟨hexp, hmis⟩ := hl hres chan
  refine ⟨hexp, ?_⟩
  rw [State.rotate_diagOut, List.countP_append, hmis]
  rfl

theorem MoveStep.keeps_seqLaw {m : Move} {s t : State} (h : MoveStep m s t) (hl : SeqLaw s) : SeqLaw t := by
  cases h with
  | noStep | sameSecond | append | overflow | advance | stop => exact hl
  | reset sec => exact resetWith_meets_seqLaw s.cfg sec
  | boundary _ _ _ hw => exact hl.afterBoundary hw _
  | rotate => exact hl.rotate _

/-- Settles O47: only a boundary advances `Seq`, emits a packet or flags a mismatch. -/
theorem stepKeepsSequenceLaw : Obligations.StepKeepsSequenceLaw :=
  ⟨resetWith_meets_seqLaw, fun _ _ hl hstep => (MoveStep.of_step hstep).keeps_seqLaw hl⟩

/-! ### The pixel law -/

theorem packetHits_concat (cfg : Config) (out : List (List Byte)) {p : List Byte} {w : Word} {ws : List Word}
    (hw : words p = w :: ws) (k : Nat) : packetHits cfg (out ++ [p]) k = packetHits cfg out k + hits cfg ws k := by
  simp [packetHits, hw]

/-- A boundary's packet adds to a counter its hits, modulo the counter's modulus. -/
theorem State.afterBoundary_read_mod {s : State} (hi : ImageInv s) (n : Nat) (w : Word) (ws : List Word) (k : Nat) :
    (s.afterBoundary n w ws).img.read k % counterModulus s.cfg =
      (s.img.read k + hits s.cfg ws k) % counterModulus s.cfg := by
  rw [State.afterBoundary_img, Memory.read_accumulate _ hi.1, List.countP_map]
  rfl

/-- A boundary adds the same hits to the live image and to the packets. -/
theorem PixelLaw.afterBoundary {s : State} (hl : PixelLaw s) (hi : ImageInv s) {w : Word} {ws : List Word}
    (hw : words (s.buf.take (8 * s.si)) = w :: ws) (n : Nat) : PixelLaw (s.afterBoundary n w ws) := by
  intro k hk
  rw [State.afterBoundary_cfg] at hk
  rw [State.afterBoundary_cfg, State.afterBoundary_snapOut, State.afterBoundary_pktOut, packetHits_concat _ _ hw,
    Nat.add_mod, State.afterBoundary_read_mod hi, ← Nat.add_mod, ← Nat.add_assoc, Nat.add_mod, hl k hk,
    ← Nat.add_mod]

theorem Memory.dump_getElem? (cfg : Config) (m : Memory) {k : Nat} (hk : k < pixelCount cfg) :
    (m.dump cfg)[k]? = some (m.read k) := by
  simp [Memory.dump, hk]

/-- A rotation moves each counter from the live image to the new snapshot. -/
theorem PixelLaw.rotate {s : State} (hl : PixelLaw s) (now : Nat) : PixelLaw (s.rotate now) := by
  intro k hk
  have hdump := Memory.dump_getElem? s.cfg s.img (k := k) hk
  simpa [hdump] using hl k hk

theorem MoveStep.keeps_pixelLaw {m : Move} {s t : State} (h : MoveStep m s t) (hi : ImageInv s) (hl : PixelLaw s) :
    PixelLaw t := by
  cases h with
  | noStep | sameSecond | append | overflow | advance | stop => exact hl
  | reset sec => exact resetWith_meets_pixelLaw s.cfg sec
  | boundary _ _ _ hw => exact hl.afterBoundary hi hw _
  | rotate => exact hl.rotate _

/-- Settles O48: a boundary adds its hits on both sides, and a rotation moves the counters. -/
theorem stepConservesPhotonCounts : Obligations.StepConservesPhotonCounts :=
  fun _ _ hi hl hstep => (MoveStep.of_step hstep).keeps_pixelLaw hi hl

/-! ### The window law -/

/-- A boundary's anomalies are no window reports. -/
theorem State.afterBoundary_windows (s : State) (n : Nat) (w : Word) (ws : List Word) :
    (s.afterBoundary n w ws).diagOut.filterMap Diag.window = s.diagOut.filterMap Diag.window := by
  rw [State.afterBoundary_diagOut, List.filterMap_append, List.filterMap_append]
  split <;> split <;> simp [Diag.window]

theorem State.rotate_windows (s : State) (now : Nat) :
    (s.rotate now).diagOut.filterMap Diag.window =
      s.diagOut.filterMap Diag.window ++ [(s.winSec, s.pktCount)] := by
  rw [State.rotate_diagOut, List.filterMap_append]
  rfl

/-- The packet of a boundary waits to be reported. -/
theorem WindowLaw.afterBoundary {s : State} (hl : WindowLaw s) (n : Nat) (w : Word) (ws : List Word) :
    WindowLaw (s.afterBoundary n w ws) := by
  obtain ⟨hkeys, hwin, hinc, hlt, hsum, hsnap⟩ := hl
  simp only [WindowLaw, State.afterBoundary_windows, State.afterBoundary_snapOut, State.afterBoundary_renderOut,
    State.afterBoundary_winSec, State.afterBoundary_pktCount, State.afterBoundary_pktOut, State.afterBoundary_cfg,
    List.length_append, List.length_singleton]
  exact ⟨hkeys, hwin, hinc, hlt, by omega, hsnap⟩

/-- A dump of an image in range is a whole image in range. -/
theorem ImageInv.dump_lt {s : State} (hi : ImageInv s) {v : Nat} (hv : v ∈ s.img.dump s.cfg) :
    v < counterModulus s.cfg := by
  obtain ⟨k, -, rfl⟩ := List.mem_map.1 hv
  exact Memory.read_lt hi.2 (counterModulus_pos _) k

/-- A rotation ends the window's second, which all keys lie before, and begins a later one. -/
theorem WindowLaw.rotate {s : State} (hl : WindowLaw s) (hi : ImageInv s) {now : Nat} (hnow : s.winSec < now) :
    WindowLaw (s.rotate now) := by
  obtain ⟨hkeys, hwin, hinc, hlt, hsum, hsnap⟩ := hl
  simp only [WindowLaw, State.rotate_windows, State.rotate_snapOut, State.rotate_renderOut, State.rotate_winSec,
    State.rotate_pktCount, State.rotate_pktOut, State.rotate_cfg, List.map_append, hkeys, hwin]
  refine ⟨rfl, rfl, ?_, fun key hkey => ?_, by simpa using hsum, fun e he => ?_⟩
  · exact List.pairwise_append.2 ⟨hinc, List.pairwise_singleton _ _, by simpa using hlt⟩
  · rcases List.mem_append.1 hkey with hkey | hkey
    · exact (hlt key hkey).trans hnow
    · cases List.mem_singleton.1 hkey
      exact hnow
  · rcases List.mem_append.1 he with he | he
    · exact hsnap e he
    · cases List.mem_singleton.1 he
      exact ⟨Memory.dump_length _ _, fun v => hi.dump_lt⟩

theorem MoveStep.keeps_windowLaw {m : Move} {s t : State} (h : MoveStep m s t) (hi : ImageInv s)
    (hl : WindowLaw s) : WindowLaw t := by
  cases h with
  | noStep | sameSecond | append | overflow | advance | stop => exact hl
  | reset sec => exact resetWith_meets_windowLaw s.cfg sec
  | boundary => exact hl.afterBoundary _ _ _
  | rotate _ hnow => exact hl.rotate hi hnow

/-- Settles O49: a boundary adds a packet that waits, and a rotation reports those that wait. -/
theorem stepKeepsWindowLaw : Obligations.StepKeepsWindowLaw :=
  fun _ _ hi hl hstep => (MoveStep.of_step hstep).keeps_windowLaw hi hl

/-! ### The sequence check of a boundary -/

/-- Settles O28: what DELIVER does to the sequence state; the one event before the check's is an Oversize. -/
theorem boundaryChecksSequence : Obligations.BoundaryChecksSequence := by
  intro s v w0 hr h1 hi hres hv hc hw0
  obtain ⟨n, hn⟩ := exists_removed_of_not_photon hc s.si
  obtain ⟨w, ws, hw, hex, hd⟩ := exec_scan_boundary hr h1 hi hv hn
  cases hw0.symm.trans (wordAt_zero_of_packet_words h1 hw)
  have hadv := hd.advanced
  rw [hres, if_neg Bool.false_ne_true] at hadv
  refine ⟨_, _, hex, fun e he => ?_, hd.reported, hd.mismatchCount, hadv, hd.otherChannels,
    by simpa [hw] using hd.pixels, hd.counted⟩
  split at he
  next => cases List.mem_singleton.1 he; rfl
  next => cases he

/-! ### The counter update -/

/-- Adding 1 to a value below the modulus wraps from the largest one alone. -/
theorem succ_mod_eq_ite {v modulus : Nat} (h : v < modulus) :
    (v + 1) % modulus = if v = modulus - 1 then 0 else v + 1 := by
  split
  next heq => rw [show v + 1 = modulus by omega, Nat.mod_self]
  next hne => exact Nat.mod_eq_of_lt (by omega)

/-- Settles O30: a write in canonical form, of a value below the modulus. -/
theorem counterWrapsAtItsWidth : Obligations.CounterWrapsAtItsWidth := by
  intro cfg m k hwf hk hfits
  refine ⟨Memory.wf_bump hwf _ _, Memory.fits_bump hfits hk (counterModulus_pos cfg), ?_, fun j hj => ?_⟩
  · rw [Memory.read_bump hwf, if_pos rfl]
    exact succ_mod_eq_ite (Memory.read_lt hfits (counterModulus_pos cfg) k)
  · rw [Memory.read_bump hwf, if_neg hj]

/-! ### TICK -/

theorem exec_tick_eq_rotate {s : State} {now : Nat} (hr : s.mode = .run) (hnow : s.winSec < now) :
    exec (.tick now) s = .next (s.rotate now) := by
  rw [exec, execTick, State.when_true (s.running_iff.2 hr), if_pos hnow]

/-- Settles O34: in RUN the second has not advanced, and in another mode TICK has no step. -/
theorem tickIgnoresEarlierSecond : Obligations.TickIgnoresEarlierSecond := by
  intro now s hnow
  rw [exec, execTick]
  cases s.running with
  | false => exact State.when_false rfl _
  | true => rw [State.when_true rfl, if_neg (Nat.not_lt.2 hnow)]

/-- Settles O33: the rotation, element by element; the data is the dump of the image. -/
theorem tickRotatesOnLaterSecond : Obligations.TickRotatesOnLaterSecond :=
  fun _ s hr hnow =>
    ⟨_, _, exec_tick_eq_rotate hr hnow, Memory.dump_length s.cfg s.img, fun _ => Memory.dump_getElem? s.cfg s.img,
      rfl, Memory.read_nil, rfl, rfl, rfl, rfl, rfl, rfl, rfl, rfl, rfl, rfl, rfl, rfl, rfl⟩

theorem Memory.dump_eq_replicate_zero (cfg : Config) {m : Memory} (h : ∀ k, m.read k = 0) :
    m.dump cfg = List.replicate (pixelCount cfg) 0 := by
  refine List.eq_replicate_iff.2 ⟨Memory.dump_length cfg m, fun v hv => ?_⟩
  obtain ⟨k, -, rfl⟩ := List.mem_map.1 hv
  exact h k

/-- Settles O35: the first TICK rotates, and to the second one its second is the window's own. -/
theorem oneSnapshotPerCrossedSecond : Obligations.OneSnapshotPerCrossedSecond := by
  rintro _ s hr rfl
  have hfirst := exec_tick_eq_rotate hr (Nat.lt_succ_self s.winSec)
  have hsecond := tickIgnoresEarlierSecond (s.winSec + 1) (s.rotate (s.winSec + 1)) le_rfl
  have honce : perform [.tick (s.winSec + 1)] s = .next (s.rotate (s.winSec + 1)) :=
    (perform_singleton _ s).trans hfirst
  have htwice : perform [.tick (s.winSec + 1), .tick (s.winSec + 1)] s = .next (s.rotate (s.winSec + 1)) :=
    (perform_cons_of_next (m := .tick _) hfirst _).trans ((perform_singleton _ _).trans hsecond)
  refine ⟨_, _, honce, rfl, Memory.read_nil, htwice, fun hcount hzero => ?_⟩
  refine ⟨Memory.dump_eq_replicate_zero s.cfg hzero, ?_⟩
  rw [State.rotate_diagOut, hcount]

end Sys2Proof.Machine

/-! SUPPORT. RESET, STOP and the run-state table of 44_control.md. -/

namespace Sys2Proof.Machine

/-! ### RESET and STOP -/

/-- Settles O14: `Seq` element by element, the image read pixel by pixel, and the other elements as RESET writes them. -/
theorem resetLeavesResetState : Obligations.ResetLeavesResetState :=
  fun n s => ⟨s.restart n, rfl, rfl, rfl, rfl, State.expected_resetWith s.cfg n, Memory.read_nil, rfl, rfl, rfl, rfl,
    rfl, rfl, rfl, rfl, rfl, rfl⟩

/-- Settles O36: in RUN with the word at `si` not whole PRE is quiescent, which is what STOP requires. -/
theorem stopOnlyChangesMode : Obligations.StopOnlyChangesMode := by
  intro s hr hlt
  rw [exec, execStop, State.when_true (s.quiescent_iff.2 ⟨hr, hlt⟩)]

/-! ### The run-state table -/

/-- RESET always has a step; every other instruction is guarded by the condition `hasStep` gives for it (00_scope.md
R8). -/
theorem exec_of_noStep {i : Instr} {s : State} (h : hasStep i s = false) : exec i s = .next s := by
  cases i with
  | reset n => cases h
  | hdr0 | hdr | term | photon | push | scan | tick | stop =>
    apply State.when_false
    exact h

/-- Settles O37: the table row by row, each by what its guard says of the mode and the buffer. -/
theorem noStepChangesNothing : Obligations.NoStepChangesNothing := by
  refine fun i s => ⟨?_, exec_of_noStep⟩
  cases i with
  | reset n => exact iff_of_true rfl trivial
  | hdr0 | push | tick => exact s.running_iff
  | scan | hdr | term | photon => exact s.scanEnabled_iff
  | stop => exact s.quiescent_iff

end Sys2Proof.Machine

/-! SUPPORT. The exceptions of 60_exceptions.md: the fault BufferOverflow, and that the sequence check stays off the data
path. -/

namespace Sys2Proof.Machine

/-! ### BufferOverflow -/

/-- PUSH that has a step and does not fit takes the fault. -/
theorem execPush_eq_raise {c : List Byte} {s : State} (hr : s.mode = .run) (hover : s.wouldOverflow c.length = true) :
    execPush c s = .next s.raiseBufferOverflow := by
  rw [execPush, State.when_true (s.running_iff.2 hr), hover, if_pos rfl]

/-- Only RESET has a step outside RUN (44_control.md R134). -/
theorem hasStep_eq_false_of_not_run {i : Instr} {s : State} (hr : s.mode ≠ .run) (hi : ∀ n, i ≠ .reset n) :
    hasStep i s = false := by
  have hrun : s.running = false := by rwa [← Bool.not_eq_true, s.running_iff]
  cases i with
  | reset n => exact absurd rfl (hi n)
  | hdr0 | push | tick => exact hrun
  | scan | hdr | term | photon => rw [hasStep, State.scanEnabled, hrun, Bool.false_and]
  | stop => rw [hasStep, State.quiescent, hrun, Bool.false_and]

/-- With BUF_CAP infinite no PUSH is the overflow. -/
theorem push_keeps_mode_of_unbounded {c : List Byte} {s t : State} (hcap : s.cfg.bufCap = none)
    (h : exec (.push c) s = .next t) : t.mode = s.mode := by
  cases MoveStep.of_push h with
  | noStep | append => rfl
  | overflow _ hover => simp [State.wouldOverflow_iff, hcap] at hover

/-- Settles O17: the fault, the modes RESET alone leaves, and the unbounded buffer, one by one. -/
theorem pushOverflowFaults : Obligations.PushOverflowFaults := by
  refine ⟨fun c s cap hr hcap hlt => ?_, fun i s t hf hi h => ?_, fun c s t => push_keeps_mode_of_unbounded⟩
  · exact execPush_eq_raise hr ((s.wouldOverflow_iff _).2 ⟨cap, hcap, hlt⟩)
  · have hnot : s.mode ≠ .run := by simp [hf]
    exact Host.Outcome.next.inj (h.symm.trans (exec_of_noStep (hasStep_eq_false_of_not_run hnot hi)))

/-! ### The sequence check -/

/-- Two states are the same but for `Seq`, `n_seq_anom` and diag_out when every other element is the same. -/
theorem State.same_but_sequence_iff {s t : State} :
    { s with seq := t.seq, nSeqAnom := t.nSeqAnom, diagOut := t.diagOut } = t ↔
      s.mode = t.mode ∧ s.buf = t.buf ∧ s.si = t.si ∧ s.img = t.img ∧ s.winSec = t.winSec ∧
      s.pktCount = t.pktCount ∧ s.nOversize = t.nOversize ∧ s.pktOut = t.pktOut ∧ s.snapOut = t.snapOut ∧
      s.renderOut = t.renderOut ∧ s.cfg = t.cfg ∧ s.sched = t.sched := by
  cases t
  simp

/-- A boundary reads `Seq` for the check and the next `Seq` only. -/
theorem State.afterBoundary_withSeq (s : State) (q : Vector (BitVec 12) 256) (n : Nat) (w : Word) (ws : List Word) :
    { ({ s with seq := q } : State).afterBoundary n w ws with
      seq := (s.afterBoundary n w ws).seq
      nSeqAnom := (s.afterBoundary n w ws).nSeqAnom
      diagOut := (s.afterBoundary n w ws).diagOut } = s.afterBoundary n w ws :=
  State.same_but_sequence_iff.2 (by simp)

/-- SCAN takes the same transition whatever the expected frame numbers are. -/
theorem MoveStep.scan_withSeq {s t : State} (h : MoveStep .scan s t) (q : Vector (BitVec 12) 256) :
    ∃ t', MoveStep .scan { s with seq := q } t' ∧
      { t' with seq := t.seq, nSeqAnom := t.nSeqAnom, diagOut := t.diagOut } = t := by
  cases h with
  | noStep hs => exact ⟨_, .noStep hs, rfl⟩
  | advance hr hv hc => exact ⟨_, .advance (s := { s with seq := q }) hr hv hc, rfl⟩
  | boundary hr hv hn hw =>
    exact ⟨_, .boundary (s := { s with seq := q }) hr hv hn hw, s.afterBoundary_withSeq q _ _ _⟩

/-- Settles O32: SCAN's transitions one by one; only a boundary reads `Seq`. -/
theorem sequenceStateNeverAltersData : Obligations.SequenceStateNeverAltersData := by
  intro s t q h
  obtain ⟨t', hstep, hdata⟩ := (MoveStep.of_scan h).scan_withSeq q
  exact ⟨t', hstep.exec_scan, hdata⟩

end Sys2Proof.Machine

/-! SUPPORT. Fair runs of 70_reset_and_hazards.md R178: what stays until it is acted on, and what fairness does. -/

namespace Sys2Proof.Machine

/-! ### What a run keeps -/

/-- A run's step is one of the transitions of the move presented. -/
theorem Run.moveStep (r : Run) (n : Nat) : MoveStep (r.moves n) { r.states n with sched := [] } (r.states (n + 1)) :=
  .of_step (r.performed n)

/-- A claim about what follows `n` holds where it follows from `holds` from `n` on, and `holds`, true at `n`, is kept
unless the claim holds already. -/
theorem claim_of_kept_or {holds : Nat → Prop} {claim : Prop} {n : Nat} (hn : holds n)
    (hsucc : ∀ m ≥ n, holds m → holds (m + 1) ∨ claim) (hforever : (∀ m ≥ n, holds m) → claim) : claim := by
  by_contra hnot
  exact hnot (hforever fun m hm => Nat.le_induction hn (fun k hk ih => (hsucc k hk ih).resolve_right hnot) m hm)

/-! ### The examination of a word that has arrived -/

/-- An enabled SCAN stays enabled until it is performed, but for RESET and the fault (41_reassembly.md R80): PUSH only
appends, TICK leaves the buffer alone, and STOP has no step while a word waits. -/
theorem MoveStep.keeps_scanEnabled {m : Move} {s t : State} (h : MoveStep m s t) (he : s.scanEnabled = true)
    (hscan : m ≠ .scan) (hreset : ∀ sec, m ≠ .reset sec) : t.scanEnabled = true ∨ t.mode = .faulted := by
  obtain ⟨hr, hlen⟩ := s.scanEnabled_iff.1 he
  cases h with
  | noStep | sameSecond | rotate => exact .inl he
  | reset sec => exact absurd rfl (hreset sec)
  | append => exact .inl ((State.scanEnabled_iff _).2 ⟨hr, hlen.trans (by simp)⟩)
  | overflow => exact .inr rfl
  | advance | boundary => exact absurd rfl hscan
  | stop hq => exact absurd (s.quiescent_iff.1 hq).2 (Nat.not_lt.2 hlen)

/-- Settles O57: SCAN stays enabled from `n` on unless one of the three comes, and fairness then performs it. -/
theorem fairRunExaminesArrivedWord : Obligations.FairRunExaminesArrivedWord := by
  rintro r n ⟨hfair, -⟩ he
  refine claim_of_kept_or (holds := fun m => (r.states m).scanEnabled = true) he (fun m hm hem => ?_) fun hall => ?_
  · by_cases hscan : r.moves m = .scan
    · exact .inr ⟨m, hm, .inl ⟨hscan, hem⟩⟩
    by_cases hreset : ∃ sec, r.moves m = .reset sec
    · exact .inr ⟨m, hm, .inr (.inl hreset)⟩
    exact ((r.moveStep m).keeps_scanEnabled hem hscan (not_exists.1 hreset)).imp_right fun hf =>
      ⟨m + 1, Nat.le_succ_of_le hm, .inr (.inr hf)⟩
  · obtain ⟨m, hm, hscan⟩ := hfair n hall
    exact ⟨m, hm, .inl ⟨hscan, hall m hm⟩⟩

/-! ### The rotation of a window -/

/-- Only RESET and a rotation write the window's second (43_accumulate_window.md R116, R117). -/
theorem MoveStep.winSec_or_snapshot {m : Move} {s t : State} (h : MoveStep m s t) (hreset : ∀ sec, m ≠ .reset sec) :
    t.winSec = s.winSec ∨ t.snapOut = s.snapOut ++ [{ key := s.winSec, data := s.img.dump s.cfg }] := by
  cases h with
  | noStep | append | overflow | advance | sameSecond | stop => exact .inl rfl
  | reset sec => exact absurd rfl (hreset sec)
  | boundary => exact .inl (State.afterBoundary_winSec ..)
  | rotate => exact .inr rfl

/-- TICK of a later second rotates a run that is in RUN. -/
theorem Run.snapOut_of_tick {r : Run} {m now : Nat} (htick : r.moves m = .tick now) (hr : (r.states m).mode = .run)
    (hnow : (r.states m).winSec < now) : (r.states (m + 1)).snapOut = (r.states m).snapOut ++
      [{ key := (r.states m).winSec, data := (r.states m).img.dump (r.states m).cfg }] := by
  have hrotate := exec_tick_eq_rotate (s := { r.states m with sched := [] }) hr hnow
  have hstep : exec (r.moves m).toInstr { r.states m with sched := [] } = .next (r.states (m + 1)) := r.performed m
  rw [htick] at hstep
  rw [← Host.Outcome.next.inj (hrotate.symm.trans hstep)]
  rfl

/-- Settles O58: the window's second stays from `n` on unless its snapshot is emitted, and the TICK that recurs then
rotates it. -/
theorem fairRunRotatesWindow : Obligations.FairRunRotatesWindow := by
  rintro r n ⟨-, hfair⟩ hrun hreset hlater
  refine claim_of_kept_or (holds := fun m => (r.states m).winSec = (r.states n).winSec) rfl (fun m hm hw => ?_)
    fun hall => ?_
  · exact ((r.moveStep m).winSec_or_snapshot (hreset m hm)).imp (fun hkept => hkept.trans hw) fun hsnap =>
      ⟨m, hm, hw ▸ hsnap⟩
  · obtain ⟨m, hm, now, htick⟩ := hfair n hrun
    have hsnap := Run.snapOut_of_tick htick (hrun m hm) (hall m hm ▸ hlater m hm now htick)
    exact ⟨m, hm, hall m hm ▸ hsnap⟩

end Sys2Proof.Machine
